-- ==== Sys2Proof/Word.lean ====
section
/-! DEFINITION. The machine's word types: bytes, 16-bit words, 24-bit addresses and the two operand
widths that `P.M` and `P.X` choose between (R5, R8, R70). -/

namespace Sys2Proof

/-- One byte, the unit of every access (R5, R76). -/
abbrev Byte := BitVec 8

/-- A 16-bit register value, offset or operand (R5). -/
abbrev Word := BitVec 16

/-- A 24-bit address, bank byte on top (R70). -/
abbrev Addr := BitVec 24

/-- The width of an operation: one byte or two (R8's `wM` and `wX`). -/
inductive Width where
  | byte
  | word
deriving DecidableEq, Repr, Inhabited

end Sys2Proof
end

