-- ==== Sys2Proof/Config.lean ====
section
/-! DEFINITION. What an implementation or a platform fixes: the open parameters of R5 as plain data, and
the values the spec leaves open as constants without a body. -/

namespace Sys2Proof

/-- `EMU_EXT` of R6: what the model does in emulation mode where the source and general knowledge differ. -/
inductive EmuExt where
  /-- A step outside the part on which both readings agree is refused. -/
  | refuse
  /-- Every rule applies as written in both modes. -/
  | chip
deriving DecidableEq, Repr

/-- `BCD` of R192: how decimal results outside the valid-operand law are produced. -/
inductive BcdChoice where
  /-- R192's candidate, the digit-serial algorithm. -/
  | candidate
  /-- An uninterpreted function that satisfies the valid-operand law. -/
  | uninterpreted
deriving DecidableEq, Repr

/-- What an address range holds (R79). -/
inductive RegionKind where
  | ram
  /-- Reads as stored; a write has no effect. -/
  | rom
  /-- A device: a read returns any byte; a write changes nothing the model holds. -/
  | io
  /-- Nothing: a read returns any byte and a write is ignored. -/
  | unmapped
deriving DecidableEq, Repr

/-- `size` addresses from `base` on, all of one kind. -/
structure Region where
  base : Nat
  size : Nat
  kind : RegionKind
deriving DecidableEq, Repr

/-- The platform's choice for the open parameters of R5 that are fixed for a run. An address in no
region of `memMap` is RAM; where regions overlap, the first listed counts. -/
structure Platform where
  emuExt   : EmuExt
  hasAbort : Bool
  bcd      : BcdChoice
  memMap   : List Region
deriving DecidableEq, Repr

/-- `ResetDraw` of R48: what reset leaves unspecified. -/
structure ResetDraw where
  a  : Byte
  b  : Byte
  xl : Byte
  yl : Byte
  sl : Byte
  n  : Bool
  v  : Bool
  z  : Bool
  c  : Bool
deriving DecidableEq, Repr, Inhabited

/-- The three outputs of an addition or subtraction: result, carry and overflow (R190 to R192). -/
structure ArithResult where
  r : Word
  c : Bool
  v : Bool
deriving DecidableEq, Repr, Inhabited

/-- FREE VALUE: the draw of the reset event taken when the draw counter holds the argument (R48, U4). -/
opaque Config.resetDraw : Nat → ResetDraw

/-- FREE VALUE: the byte a read of an I/O or unmapped address returns, by draw counter and address
(R79, U5). -/
opaque Config.busByte : Nat → Addr → Byte

/-- FREE VALUE: the high byte of the pointer in the one case of mode (d,x) that R141 leaves open (U6). -/
opaque Config.idpxPointerHigh : Nat → Byte

/-- FREE VALUE: the part of an uninterpreted decimal addition that R192's law does not fix (U3). -/
opaque Config.bcdAddOpen : Width → Word → Word → Bool → ArithResult

/-- FREE VALUE: the part of an uninterpreted decimal subtraction that R192's law does not fix (U3). -/
opaque Config.bcdSubOpen : Width → Word → Word → Bool → ArithResult

end Sys2Proof
end

