-- ==== Sys2Proof/Syntax.lean ====
section
/-! DEFINITION. The instructions: one constructor per row of the opcode table (R105), the addressing modes
with their operand bytes (R101, R103) and the mnemonics. -/

namespace Sys2Proof

/-- The fifteen modes that name an operand in memory, each with its assembled operand (R103; the
effective addresses are R132 to R151). -/
inductive MemMode where
  | abs (a : Word)
  | absx (a : Word)
  | absy (a : Word)
  | long (al : Addr)
  | longx (al : Addr)
  | dp (d : Byte)
  | dpx (d : Byte)
  | dpy (d : Byte)
  | idp (d : Byte)
  | idpx (d : Byte)
  | idpy (d : Byte)
  | ildp (d : Byte)
  | ildpy (d : Byte)
  | sr (d : Byte)
  | isry (d : Byte)
deriving DecidableEq, Repr

/-- An instruction's operand as the bytes after the opcode give it (R101). `JMP a`, `JSR a`, `JML al`,
`JSL al` and `PEI (d)` share the byte layout of a memory mode; what they do with it is in their rules. -/
inductive Operand where
  | imp
  | acc
  | immM (v : Word)
  | immX (v : Word)
  | imm8 (k : Byte)
  | imm16 (v : Word)
  | sig (b : Byte)
  | data (m : MemMode)
  | ind (a : Word)
  | indx (a : Word)
  | indl (a : Word)
  | rel8 (o : Byte)
  | rel16 (o : Word)
  | blk (dst src : Byte)
deriving DecidableEq, Repr

/-- The 28 mode ids of R101. -/
inductive Format where
  | imp | acc | immM | immX | imm8 | imm16 | sig
  | dp | dpx | dpy | idp | idpx | idpy | ildp | ildpy | sr | isry
  | abs | absx | absy | long | longx | ind | indx | indl
  | rel8 | rel16 | blk
deriving DecidableEq, Repr

/-- The 92 mnemonics of the opcode table. -/
inductive Mnemonic where
  | brk | ora | cop | tsb | asl | php | phd | bpl | trb | clc
  | inc | tcs | jsr | and | jsl | bit | rol | plp | pld | bmi
  | sec | dec | tsc | rti | eor | wdm | mvp | lsr | pha | phk
  | jmp | bvc | mvn | cli | phy | tcd | jml | rts | adc | per
  | stz | ror | pla | rtl | bvs | sei | ply | tdc | bra | sta
  | brl | sty | stx | dey | txa | phb | bcc | tya | txs | txy
  | ldy | lda | ldx | tay | tax | plb | bcs | clv | tsx | tyx
  | cpy | cmp | rep | iny | dex | wai | bne | pei | cld | phx
  | stp | cpx | sbc | sep | inx | nop | xba | beq | pea | sed
  | plx | xce
deriving DecidableEq, Repr

/-- One constructor per row of the opcode table; the suffix is the row's mode id where a mnemonic has several
rows. The rows with operand bytes come first, in opcode order, then the rows without (Lean compiles no more
than 245 constructors that carry data, so these must be the first). An immediate of mode `immM` or `immX` is held as a word; with an 8-bit width its
high byte is zero (`Instr.wf`). -/
inductive Instr where
  /-- `$00` BRK sig (R360, mode R160). -/
  | brk (b : Byte)
  /-- `$01` ORA (d,x) (R221, mode R146). -/
  | oraIdpx (d : Byte)
  /-- `$02` COP sig (R361, mode R160). -/
  | cop (b : Byte)
  /-- `$03` ORA d,s (R221, mode R150). -/
  | oraSr (d : Byte)
  /-- `$04` TSB d (R224, mode R142). -/
  | tsbDp (d : Byte)
  /-- `$05` ORA d (R221, mode R142). -/
  | oraDp (d : Byte)
  /-- `$06` ASL d (R240, mode R142). -/
  | aslDp (d : Byte)
  /-- `$07` ORA [d] (R221, mode R148). -/
  | oraIldp (d : Byte)
  /-- `$09` ORA #m (R221, mode R131). -/
  | oraImm (v : Word)
  /-- `$0C` TSB a (R224, mode R132). -/
  | tsbAbs (a : Word)
  /-- `$0D` ORA a (R221, mode R132). -/
  | oraAbs (a : Word)
  /-- `$0E` ASL a (R240, mode R132). -/
  | aslAbs (a : Word)
  /-- `$0F` ORA al (R221, mode R135). -/
  | oraLong (al : Addr)
  /-- `$10` BPL r (R256, mode R155). -/
  | bpl (o : Byte)
  /-- `$11` ORA (d),y (R221, mode R147). -/
  | oraIdpy (d : Byte)
  /-- `$12` ORA (d) (R221, mode R145). -/
  | oraIdp (d : Byte)
  /-- `$13` ORA (d,s),y (R221, mode R151). -/
  | oraIsry (d : Byte)
  /-- `$14` TRB d (R225, mode R142). -/
  | trbDp (d : Byte)
  /-- `$15` ORA d,x (R221, mode R143). -/
  | oraDpx (d : Byte)
  /-- `$16` ASL d,x (R240, mode R143). -/
  | aslDpx (d : Byte)
  /-- `$17` ORA [d],y (R221, mode R149). -/
  | oraIldpy (d : Byte)
  /-- `$19` ORA a,y (R221, mode R134). -/
  | oraAbsy (a : Word)
  /-- `$1C` TRB a (R225, mode R132). -/
  | trbAbs (a : Word)
  /-- `$1D` ORA a,x (R221, mode R133). -/
  | oraAbsx (a : Word)
  /-- `$1E` ASL a,x (R240, mode R133). -/
  | aslAbsx (a : Word)
  /-- `$1F` ORA al,x (R221, mode R136). -/
  | oraLongx (al : Addr)
  /-- `$20` JSR a (R285, mode R132). -/
  | jsrAbs (a : Word)
  /-- `$21` AND (d,x) (R220, mode R146). -/
  | andIdpx (d : Byte)
  /-- `$22` JSL al (R287, mode R135). -/
  | jsl (al : Addr)
  /-- `$23` AND d,s (R220, mode R150). -/
  | andSr (d : Byte)
  /-- `$24` BIT d (R223, mode R142). -/
  | bitDp (d : Byte)
  /-- `$25` AND d (R220, mode R142). -/
  | andDp (d : Byte)
  /-- `$26` ROL d (R242, mode R142). -/
  | rolDp (d : Byte)
  /-- `$27` AND [d] (R220, mode R148). -/
  | andIldp (d : Byte)
  /-- `$29` AND #m (R220, mode R131). -/
  | andImm (v : Word)
  /-- `$2C` BIT a (R223, mode R132). -/
  | bitAbs (a : Word)
  /-- `$2D` AND a (R220, mode R132). -/
  | andAbs (a : Word)
  /-- `$2E` ROL a (R242, mode R132). -/
  | rolAbs (a : Word)
  /-- `$2F` AND al (R220, mode R135). -/
  | andLong (al : Addr)
  /-- `$30` BMI r (R255, mode R155). -/
  | bmi (o : Byte)
  /-- `$31` AND (d),y (R220, mode R147). -/
  | andIdpy (d : Byte)
  /-- `$32` AND (d) (R220, mode R145). -/
  | andIdp (d : Byte)
  /-- `$33` AND (d,s),y (R220, mode R151). -/
  | andIsry (d : Byte)
  /-- `$34` BIT d,x (R223, mode R143). -/
  | bitDpx (d : Byte)
  /-- `$35` AND d,x (R220, mode R143). -/
  | andDpx (d : Byte)
  /-- `$36` ROL d,x (R242, mode R143). -/
  | rolDpx (d : Byte)
  /-- `$37` AND [d],y (R220, mode R149). -/
  | andIldpy (d : Byte)
  /-- `$39` AND a,y (R220, mode R134). -/
  | andAbsy (a : Word)
  /-- `$3C` BIT a,x (R223, mode R133). -/
  | bitAbsx (a : Word)
  /-- `$3D` AND a,x (R220, mode R133). -/
  | andAbsx (a : Word)
  /-- `$3E` ROL a,x (R242, mode R133). -/
  | rolAbsx (a : Word)
  /-- `$3F` AND al,x (R220, mode R136). -/
  | andLongx (al : Addr)
  /-- `$41` EOR (d,x) (R222, mode R146). -/
  | eorIdpx (d : Byte)
  /-- `$42` WDM sig (R365, mode R160). -/
  | wdm (b : Byte)
  /-- `$43` EOR d,s (R222, mode R150). -/
  | eorSr (d : Byte)
  /-- `$44` MVP xyc (R391, mode R157). -/
  | mvp (dst src : Byte)
  /-- `$45` EOR d (R222, mode R142). -/
  | eorDp (d : Byte)
  /-- `$46` LSR d (R241, mode R142). -/
  | lsrDp (d : Byte)
  /-- `$47` EOR [d] (R222, mode R148). -/
  | eorIldp (d : Byte)
  /-- `$49` EOR #m (R222, mode R131). -/
  | eorImm (v : Word)
  /-- `$4C` JMP a (R262, mode R132). -/
  | jmpAbs (a : Word)
  /-- `$4D` EOR a (R222, mode R132). -/
  | eorAbs (a : Word)
  /-- `$4E` LSR a (R241, mode R132). -/
  | lsrAbs (a : Word)
  /-- `$4F` EOR al (R222, mode R135). -/
  | eorLong (al : Addr)
  /-- `$50` BVC r (R257, mode R155). -/
  | bvc (o : Byte)
  /-- `$51` EOR (d),y (R222, mode R147). -/
  | eorIdpy (d : Byte)
  /-- `$52` EOR (d) (R222, mode R145). -/
  | eorIdp (d : Byte)
  /-- `$53` EOR (d,s),y (R222, mode R151). -/
  | eorIsry (d : Byte)
  /-- `$54` MVN xyc (R390, mode R157). -/
  | mvn (dst src : Byte)
  /-- `$55` EOR d,x (R222, mode R143). -/
  | eorDpx (d : Byte)
  /-- `$56` LSR d,x (R241, mode R143). -/
  | lsrDpx (d : Byte)
  /-- `$57` EOR [d],y (R222, mode R149). -/
  | eorIldpy (d : Byte)
  /-- `$59` EOR a,y (R222, mode R134). -/
  | eorAbsy (a : Word)
  /-- `$5C` JML al (R266, mode R135). -/
  | jmlLong (al : Addr)
  /-- `$5D` EOR a,x (R222, mode R133). -/
  | eorAbsx (a : Word)
  /-- `$5E` LSR a,x (R241, mode R133). -/
  | lsrAbsx (a : Word)
  /-- `$5F` EOR al,x (R222, mode R136). -/
  | eorLongx (al : Addr)
  /-- `$61` ADC (d,x) (R190, mode R146). -/
  | adcIdpx (d : Byte)
  /-- `$62` PER rl (R297, mode R156). -/
  | per (o : Word)
  /-- `$63` ADC d,s (R190, mode R150). -/
  | adcSr (d : Byte)
  /-- `$64` STZ d (R176, mode R142). -/
  | stzDp (d : Byte)
  /-- `$65` ADC d (R190, mode R142). -/
  | adcDp (d : Byte)
  /-- `$66` ROR d (R243, mode R142). -/
  | rorDp (d : Byte)
  /-- `$67` ADC [d] (R190, mode R148). -/
  | adcIldp (d : Byte)
  /-- `$69` ADC #m (R190, mode R131). -/
  | adcImm (v : Word)
  /-- `$6C` JMP (a) (R263, mode R152). -/
  | jmpInd (a : Word)
  /-- `$6D` ADC a (R190, mode R132). -/
  | adcAbs (a : Word)
  /-- `$6E` ROR a (R243, mode R132). -/
  | rorAbs (a : Word)
  /-- `$6F` ADC al (R190, mode R135). -/
  | adcLong (al : Addr)
  /-- `$70` BVS r (R258, mode R155). -/
  | bvs (o : Byte)
  /-- `$71` ADC (d),y (R190, mode R147). -/
  | adcIdpy (d : Byte)
  /-- `$72` ADC (d) (R190, mode R145). -/
  | adcIdp (d : Byte)
  /-- `$73` ADC (d,s),y (R190, mode R151). -/
  | adcIsry (d : Byte)
  /-- `$74` STZ d,x (R176, mode R143). -/
  | stzDpx (d : Byte)
  /-- `$75` ADC d,x (R190, mode R143). -/
  | adcDpx (d : Byte)
  /-- `$76` ROR d,x (R243, mode R143). -/
  | rorDpx (d : Byte)
  /-- `$77` ADC [d],y (R190, mode R149). -/
  | adcIldpy (d : Byte)
  /-- `$79` ADC a,y (R190, mode R134). -/
  | adcAbsy (a : Word)
  /-- `$7C` JMP (a,x) (R264, mode R153). -/
  | jmpIndx (a : Word)
  /-- `$7D` ADC a,x (R190, mode R133). -/
  | adcAbsx (a : Word)
  /-- `$7E` ROR a,x (R243, mode R133). -/
  | rorAbsx (a : Word)
  /-- `$7F` ADC al,x (R190, mode R136). -/
  | adcLongx (al : Addr)
  /-- `$80` BRA r (R259, mode R155). -/
  | bra (o : Byte)
  /-- `$81` STA (d,x) (R173, mode R146). -/
  | staIdpx (d : Byte)
  /-- `$82` BRL rl (R260, mode R156). -/
  | brl (o : Word)
  /-- `$83` STA d,s (R173, mode R150). -/
  | staSr (d : Byte)
  /-- `$84` STY d (R175, mode R142). -/
  | styDp (d : Byte)
  /-- `$85` STA d (R173, mode R142). -/
  | staDp (d : Byte)
  /-- `$86` STX d (R174, mode R142). -/
  | stxDp (d : Byte)
  /-- `$87` STA [d] (R173, mode R148). -/
  | staIldp (d : Byte)
  /-- `$89` BIT #m (R223, mode R131). -/
  | bitImm (v : Word)
  /-- `$8C` STY a (R175, mode R132). -/
  | styAbs (a : Word)
  /-- `$8D` STA a (R173, mode R132). -/
  | staAbs (a : Word)
  /-- `$8E` STX a (R174, mode R132). -/
  | stxAbs (a : Word)
  /-- `$8F` STA al (R173, mode R135). -/
  | staLong (al : Addr)
  /-- `$90` BCC r (R251, mode R155). -/
  | bcc (o : Byte)
  /-- `$91` STA (d),y (R173, mode R147). -/
  | staIdpy (d : Byte)
  /-- `$92` STA (d) (R173, mode R145). -/
  | staIdp (d : Byte)
  /-- `$93` STA (d,s),y (R173, mode R151). -/
  | staIsry (d : Byte)
  /-- `$94` STY d,x (R175, mode R143). -/
  | styDpx (d : Byte)
  /-- `$95` STA d,x (R173, mode R143). -/
  | staDpx (d : Byte)
  /-- `$96` STX d,y (R174, mode R144). -/
  | stxDpy (d : Byte)
  /-- `$97` STA [d],y (R173, mode R149). -/
  | staIldpy (d : Byte)
  /-- `$99` STA a,y (R173, mode R134). -/
  | staAbsy (a : Word)
  /-- `$9C` STZ a (R176, mode R132). -/
  | stzAbs (a : Word)
  /-- `$9D` STA a,x (R173, mode R133). -/
  | staAbsx (a : Word)
  /-- `$9E` STZ a,x (R176, mode R133). -/
  | stzAbsx (a : Word)
  /-- `$9F` STA al,x (R173, mode R136). -/
  | staLongx (al : Addr)
  /-- `$A0` LDY #x (R172, mode R131). -/
  | ldyImm (v : Word)
  /-- `$A1` LDA (d,x) (R170, mode R146). -/
  | ldaIdpx (d : Byte)
  /-- `$A2` LDX #x (R171, mode R131). -/
  | ldxImm (v : Word)
  /-- `$A3` LDA d,s (R170, mode R150). -/
  | ldaSr (d : Byte)
  /-- `$A4` LDY d (R172, mode R142). -/
  | ldyDp (d : Byte)
  /-- `$A5` LDA d (R170, mode R142). -/
  | ldaDp (d : Byte)
  /-- `$A6` LDX d (R171, mode R142). -/
  | ldxDp (d : Byte)
  /-- `$A7` LDA [d] (R170, mode R148). -/
  | ldaIldp (d : Byte)
  /-- `$A9` LDA #m (R170, mode R131). -/
  | ldaImm (v : Word)
  /-- `$AC` LDY a (R172, mode R132). -/
  | ldyAbs (a : Word)
  /-- `$AD` LDA a (R170, mode R132). -/
  | ldaAbs (a : Word)
  /-- `$AE` LDX a (R171, mode R132). -/
  | ldxAbs (a : Word)
  /-- `$AF` LDA al (R170, mode R135). -/
  | ldaLong (al : Addr)
  /-- `$B0` BCS r (R252, mode R155). -/
  | bcs (o : Byte)
  /-- `$B1` LDA (d),y (R170, mode R147). -/
  | ldaIdpy (d : Byte)
  /-- `$B2` LDA (d) (R170, mode R145). -/
  | ldaIdp (d : Byte)
  /-- `$B3` LDA (d,s),y (R170, mode R151). -/
  | ldaIsry (d : Byte)
  /-- `$B4` LDY d,x (R172, mode R143). -/
  | ldyDpx (d : Byte)
  /-- `$B5` LDA d,x (R170, mode R143). -/
  | ldaDpx (d : Byte)
  /-- `$B6` LDX d,y (R171, mode R144). -/
  | ldxDpy (d : Byte)
  /-- `$B7` LDA [d],y (R170, mode R149). -/
  | ldaIldpy (d : Byte)
  /-- `$B9` LDA a,y (R170, mode R134). -/
  | ldaAbsy (a : Word)
  /-- `$BC` LDY a,x (R172, mode R133). -/
  | ldyAbsx (a : Word)
  /-- `$BD` LDA a,x (R170, mode R133). -/
  | ldaAbsx (a : Word)
  /-- `$BE` LDX a,y (R171, mode R134). -/
  | ldxAbsy (a : Word)
  /-- `$BF` LDA al,x (R170, mode R136). -/
  | ldaLongx (al : Addr)
  /-- `$C0` CPY #x (R195, mode R131). -/
  | cpyImm (v : Word)
  /-- `$C1` CMP (d,x) (R193, mode R146). -/
  | cmpIdpx (d : Byte)
  /-- `$C2` REP #8 (R380, mode R131). -/
  | rep (k : Byte)
  /-- `$C3` CMP d,s (R193, mode R150). -/
  | cmpSr (d : Byte)
  /-- `$C4` CPY d (R195, mode R142). -/
  | cpyDp (d : Byte)
  /-- `$C5` CMP d (R193, mode R142). -/
  | cmpDp (d : Byte)
  /-- `$C6` DEC d (R197, mode R142). -/
  | decDp (d : Byte)
  /-- `$C7` CMP [d] (R193, mode R148). -/
  | cmpIldp (d : Byte)
  /-- `$C9` CMP #m (R193, mode R131). -/
  | cmpImm (v : Word)
  /-- `$CC` CPY a (R195, mode R132). -/
  | cpyAbs (a : Word)
  /-- `$CD` CMP a (R193, mode R132). -/
  | cmpAbs (a : Word)
  /-- `$CE` DEC a (R197, mode R132). -/
  | decAbs (a : Word)
  /-- `$CF` CMP al (R193, mode R135). -/
  | cmpLong (al : Addr)
  /-- `$D0` BNE r (R254, mode R155). -/
  | bne (o : Byte)
  /-- `$D1` CMP (d),y (R193, mode R147). -/
  | cmpIdpy (d : Byte)
  /-- `$D2` CMP (d) (R193, mode R145). -/
  | cmpIdp (d : Byte)
  /-- `$D3` CMP (d,s),y (R193, mode R151). -/
  | cmpIsry (d : Byte)
  /-- `$D4` PEI (d) (R296, mode R145). -/
  | pei (d : Byte)
  /-- `$D5` CMP d,x (R193, mode R143). -/
  | cmpDpx (d : Byte)
  /-- `$D6` DEC d,x (R197, mode R143). -/
  | decDpx (d : Byte)
  /-- `$D7` CMP [d],y (R193, mode R149). -/
  | cmpIldpy (d : Byte)
  /-- `$D9` CMP a,y (R193, mode R134). -/
  | cmpAbsy (a : Word)
  /-- `$DC` JML [a] (R267, mode R154). -/
  | jmlIndl (a : Word)
  /-- `$DD` CMP a,x (R193, mode R133). -/
  | cmpAbsx (a : Word)
  /-- `$DE` DEC a,x (R197, mode R133). -/
  | decAbsx (a : Word)
  /-- `$DF` CMP al,x (R193, mode R136). -/
  | cmpLongx (al : Addr)
  /-- `$E0` CPX #x (R194, mode R131). -/
  | cpxImm (v : Word)
  /-- `$E1` SBC (d,x) (R191, mode R146). -/
  | sbcIdpx (d : Byte)
  /-- `$E2` SEP #8 (R381, mode R131). -/
  | sep (k : Byte)
  /-- `$E3` SBC d,s (R191, mode R150). -/
  | sbcSr (d : Byte)
  /-- `$E4` CPX d (R194, mode R142). -/
  | cpxDp (d : Byte)
  /-- `$E5` SBC d (R191, mode R142). -/
  | sbcDp (d : Byte)
  /-- `$E6` INC d (R196, mode R142). -/
  | incDp (d : Byte)
  /-- `$E7` SBC [d] (R191, mode R148). -/
  | sbcIldp (d : Byte)
  /-- `$E9` SBC #m (R191, mode R131). -/
  | sbcImm (v : Word)
  /-- `$EC` CPX a (R194, mode R132). -/
  | cpxAbs (a : Word)
  /-- `$ED` SBC a (R191, mode R132). -/
  | sbcAbs (a : Word)
  /-- `$EE` INC a (R196, mode R132). -/
  | incAbs (a : Word)
  /-- `$EF` SBC al (R191, mode R135). -/
  | sbcLong (al : Addr)
  /-- `$F0` BEQ r (R253, mode R155). -/
  | beq (o : Byte)
  /-- `$F1` SBC (d),y (R191, mode R147). -/
  | sbcIdpy (d : Byte)
  /-- `$F2` SBC (d) (R191, mode R145). -/
  | sbcIdp (d : Byte)
  /-- `$F3` SBC (d,s),y (R191, mode R151). -/
  | sbcIsry (d : Byte)
  /-- `$F4` PEA #16 (R295, mode R161). -/
  | pea (v : Word)
  /-- `$F5` SBC d,x (R191, mode R143). -/
  | sbcDpx (d : Byte)
  /-- `$F6` INC d,x (R196, mode R143). -/
  | incDpx (d : Byte)
  /-- `$F7` SBC [d],y (R191, mode R149). -/
  | sbcIldpy (d : Byte)
  /-- `$F9` SBC a,y (R191, mode R134). -/
  | sbcAbsy (a : Word)
  /-- `$FC` JSR (a,x) (R286, mode R153). -/
  | jsrIndx (a : Word)
  /-- `$FD` SBC a,x (R191, mode R133). -/
  | sbcAbsx (a : Word)
  /-- `$FE` INC a,x (R196, mode R133). -/
  | incAbsx (a : Word)
  /-- `$FF` SBC al,x (R191, mode R136). -/
  | sbcLongx (al : Addr)
  /-- `$08` PHP (R299, mode R158). -/
  | php
  /-- `$0A` ASL A (R240, mode R159). -/
  | aslAcc
  /-- `$0B` PHD (R303, mode R158). -/
  | phd
  /-- `$18` CLC (R370, mode R158). -/
  | clc
  /-- `$1A` INC A (R196, mode R159). -/
  | incAcc
  /-- `$1B` TCS (R341, mode R158). -/
  | tcs
  /-- `$28` PLP (R305, mode R158). -/
  | plp
  /-- `$2A` ROL A (R242, mode R159). -/
  | rolAcc
  /-- `$2B` PLD (R310, mode R158). -/
  | pld
  /-- `$38` SEC (R369, mode R158). -/
  | sec
  /-- `$3A` DEC A (R197, mode R159). -/
  | decAcc
  /-- `$3B` TSC (R342, mode R158). -/
  | tsc
  /-- `$40` RTI (R292, mode R158). -/
  | rti
  /-- `$48` PHA (R298, mode R158). -/
  | pha
  /-- `$4A` LSR A (R241, mode R159). -/
  | lsrAcc
  /-- `$4B` PHK (R304, mode R158). -/
  | phk
  /-- `$58` CLI (R374, mode R158). -/
  | cli
  /-- `$5A` PHY (R301, mode R158). -/
  | phy
  /-- `$5B` TCD (R339, mode R158). -/
  | tcd
  /-- `$60` RTS (R288, mode R158). -/
  | rts
  /-- `$68` PLA (R306, mode R158). -/
  | pla
  /-- `$6A` ROR A (R243, mode R159). -/
  | rorAcc
  /-- `$6B` RTL (R289, mode R158). -/
  | rtl
  /-- `$78` SEI (R373, mode R158). -/
  | sei
  /-- `$7A` PLY (R308, mode R158). -/
  | ply
  /-- `$7B` TDC (R340, mode R158). -/
  | tdc
  /-- `$88` DEY (R201, mode R158). -/
  | dey
  /-- `$8A` TXA (R333, mode R158). -/
  | txa
  /-- `$8B` PHB (R302, mode R158). -/
  | phb
  /-- `$98` TYA (R334, mode R158). -/
  | tya
  /-- `$9A` TXS (R336, mode R158). -/
  | txs
  /-- `$9B` TXY (R337, mode R158). -/
  | txy
  /-- `$A8` TAY (R332, mode R158). -/
  | tay
  /-- `$AA` TAX (R331, mode R158). -/
  | tax
  /-- `$AB` PLB (R309, mode R158). -/
  | plb
  /-- `$B8` CLV (R375, mode R158). -/
  | clv
  /-- `$BA` TSX (R335, mode R158). -/
  | tsx
  /-- `$BB` TYX (R338, mode R158). -/
  | tyx
  /-- `$C8` INY (R199, mode R158). -/
  | iny
  /-- `$CA` DEX (R200, mode R158). -/
  | dex
  /-- `$CB` WAI (R366, mode R158). -/
  | wai
  /-- `$D8` CLD (R372, mode R158). -/
  | cld
  /-- `$DA` PHX (R300, mode R158). -/
  | phx
  /-- `$DB` STP (R367, mode R158). -/
  | stp
  /-- `$E8` INX (R198, mode R158). -/
  | inx
  /-- `$EA` NOP (R368, mode R158). -/
  | nop
  /-- `$EB` XBA (R343, mode R158). -/
  | xba
  /-- `$F8` SED (R371, mode R158). -/
  | sed
  /-- `$FA` PLX (R307, mode R158). -/
  | plx
  /-- `$FB` XCE (R345, mode R158). -/
  | xce
deriving DecidableEq, Repr

/-- The mnemonic of an instruction's opcode-table row. -/
def Instr.mnemonic : Instr → Mnemonic
  | .brk .. => .brk
  | .oraIdpx .. | .oraSr .. | .oraDp .. | .oraIldp .. | .oraImm .. | .oraAbs .. | .oraLong ..
  | .oraIdpy .. | .oraIdp .. | .oraIsry .. | .oraDpx .. | .oraIldpy .. | .oraAbsy ..
  | .oraAbsx .. | .oraLongx .. => .ora
  | .cop .. => .cop
  | .tsbDp .. | .tsbAbs .. => .tsb
  | .aslDp .. | .aslAcc | .aslAbs .. | .aslDpx .. | .aslAbsx .. => .asl
  | .php => .php
  | .phd => .phd
  | .bpl .. => .bpl
  | .trbDp .. | .trbAbs .. => .trb
  | .clc => .clc
  | .incAcc | .incDp .. | .incAbs .. | .incDpx .. | .incAbsx .. => .inc
  | .tcs => .tcs
  | .jsrAbs .. | .jsrIndx .. => .jsr
  | .andIdpx .. | .andSr .. | .andDp .. | .andIldp .. | .andImm .. | .andAbs .. | .andLong ..
  | .andIdpy .. | .andIdp .. | .andIsry .. | .andDpx .. | .andIldpy .. | .andAbsy ..
  | .andAbsx .. | .andLongx .. => .and
  | .jsl .. => .jsl
  | .bitDp .. | .bitAbs .. | .bitDpx .. | .bitAbsx .. | .bitImm .. => .bit
  | .rolDp .. | .rolAcc | .rolAbs .. | .rolDpx .. | .rolAbsx .. => .rol
  | .plp => .plp
  | .pld => .pld
  | .bmi .. => .bmi
  | .sec => .sec
  | .decAcc | .decDp .. | .decAbs .. | .decDpx .. | .decAbsx .. => .dec
  | .tsc => .tsc
  | .rti => .rti
  | .eorIdpx .. | .eorSr .. | .eorDp .. | .eorIldp .. | .eorImm .. | .eorAbs .. | .eorLong ..
  | .eorIdpy .. | .eorIdp .. | .eorIsry .. | .eorDpx .. | .eorIldpy .. | .eorAbsy ..
  | .eorAbsx .. | .eorLongx .. => .eor
  | .wdm .. => .wdm
  | .mvp .. => .mvp
  | .lsrDp .. | .lsrAcc | .lsrAbs .. | .lsrDpx .. | .lsrAbsx .. => .lsr
  | .pha => .pha
  | .phk => .phk
  | .jmpAbs .. | .jmpInd .. | .jmpIndx .. => .jmp
  | .bvc .. => .bvc
  | .mvn .. => .mvn
  | .cli => .cli
  | .phy => .phy
  | .tcd => .tcd
  | .jmlLong .. | .jmlIndl .. => .jml
  | .rts => .rts
  | .adcIdpx .. | .adcSr .. | .adcDp .. | .adcIldp .. | .adcImm .. | .adcAbs .. | .adcLong ..
  | .adcIdpy .. | .adcIdp .. | .adcIsry .. | .adcDpx .. | .adcIldpy .. | .adcAbsy ..
  | .adcAbsx .. | .adcLongx .. => .adc
  | .per .. => .per
  | .stzDp .. | .stzDpx .. | .stzAbs .. | .stzAbsx .. => .stz
  | .rorDp .. | .rorAcc | .rorAbs .. | .rorDpx .. | .rorAbsx .. => .ror
  | .pla => .pla
  | .rtl => .rtl
  | .bvs .. => .bvs
  | .sei => .sei
  | .ply => .ply
  | .tdc => .tdc
  | .bra .. => .bra
  | .staIdpx .. | .staSr .. | .staDp .. | .staIldp .. | .staAbs .. | .staLong .. | .staIdpy ..
  | .staIdp .. | .staIsry .. | .staDpx .. | .staIldpy .. | .staAbsy .. | .staAbsx ..
  | .staLongx .. => .sta
  | .brl .. => .brl
  | .styDp .. | .styAbs .. | .styDpx .. => .sty
  | .stxDp .. | .stxAbs .. | .stxDpy .. => .stx
  | .dey => .dey
  | .txa => .txa
  | .phb => .phb
  | .bcc .. => .bcc
  | .tya => .tya
  | .txs => .txs
  | .txy => .txy
  | .ldyImm .. | .ldyDp .. | .ldyAbs .. | .ldyDpx .. | .ldyAbsx .. => .ldy
  | .ldaIdpx .. | .ldaSr .. | .ldaDp .. | .ldaIldp .. | .ldaImm .. | .ldaAbs .. | .ldaLong ..
  | .ldaIdpy .. | .ldaIdp .. | .ldaIsry .. | .ldaDpx .. | .ldaIldpy .. | .ldaAbsy ..
  | .ldaAbsx .. | .ldaLongx .. => .lda
  | .ldxImm .. | .ldxDp .. | .ldxAbs .. | .ldxDpy .. | .ldxAbsy .. => .ldx
  | .tay => .tay
  | .tax => .tax
  | .plb => .plb
  | .bcs .. => .bcs
  | .clv => .clv
  | .tsx => .tsx
  | .tyx => .tyx
  | .cpyImm .. | .cpyDp .. | .cpyAbs .. => .cpy
  | .cmpIdpx .. | .cmpSr .. | .cmpDp .. | .cmpIldp .. | .cmpImm .. | .cmpAbs .. | .cmpLong ..
  | .cmpIdpy .. | .cmpIdp .. | .cmpIsry .. | .cmpDpx .. | .cmpIldpy .. | .cmpAbsy ..
  | .cmpAbsx .. | .cmpLongx .. => .cmp
  | .rep .. => .rep
  | .iny => .iny
  | .dex => .dex
  | .wai => .wai
  | .bne .. => .bne
  | .pei .. => .pei
  | .cld => .cld
  | .phx => .phx
  | .stp => .stp
  | .cpxImm .. | .cpxDp .. | .cpxAbs .. => .cpx
  | .sbcIdpx .. | .sbcSr .. | .sbcDp .. | .sbcIldp .. | .sbcImm .. | .sbcAbs .. | .sbcLong ..
  | .sbcIdpy .. | .sbcIdp .. | .sbcIsry .. | .sbcDpx .. | .sbcIldpy .. | .sbcAbsy ..
  | .sbcAbsx .. | .sbcLongx .. => .sbc
  | .sep .. => .sep
  | .inx => .inx
  | .nop => .nop
  | .xba => .xba
  | .beq .. => .beq
  | .pea .. => .pea
  | .sed => .sed
  | .plx => .plx
  | .xce => .xce

end Sys2Proof
end

