-- ==== Sys2Proof/WellFormed.lean ====
section
/-! DEFINITION. When an instruction is one the encoding admits under the width flags `P.M` and `P.X`. -/

namespace Sys2Proof

/-- An operand value fits a width flag: with the flag set the operand is one byte (R102, R103). -/
def immediateFits (narrow : Bool) (v : Word) : Bool := !narrow || decide (v.toNat < 256)

/-- The twelve immediate opcodes carry a value of the width their flag selects: `m` for the eight of mode
`immM`, `x` for the four of mode `immX` (R102). Every other instruction's operand has one width. -/
def Instr.wf (m x : Bool) : Instr → Bool
  | .oraImm v | .andImm v | .eorImm v | .adcImm v | .bitImm v | .ldaImm v | .cmpImm v | .sbcImm v => immediateFits m v
  | .ldyImm v | .ldxImm v | .cpyImm v | .cpxImm v => immediateFits x v
  | .brk .. | .oraIdpx .. | .cop .. | .oraSr .. | .tsbDp .. | .oraDp .. | .aslDp ..
  | .oraIldp .. | .php | .aslAcc | .phd | .tsbAbs .. | .oraAbs .. | .aslAbs .. | .oraLong ..
  | .bpl .. | .oraIdpy .. | .oraIdp .. | .oraIsry .. | .trbDp .. | .oraDpx .. | .aslDpx ..
  | .oraIldpy .. | .clc | .oraAbsy .. | .incAcc | .tcs | .trbAbs .. | .oraAbsx .. | .aslAbsx ..
  | .oraLongx .. | .jsrAbs .. | .andIdpx .. | .jsl .. | .andSr .. | .bitDp .. | .andDp ..
  | .rolDp .. | .andIldp .. | .plp | .rolAcc | .pld | .bitAbs .. | .andAbs .. | .rolAbs ..
  | .andLong .. | .bmi .. | .andIdpy .. | .andIdp .. | .andIsry .. | .bitDpx .. | .andDpx ..
  | .rolDpx .. | .andIldpy .. | .sec | .andAbsy .. | .decAcc | .tsc | .bitAbsx .. | .andAbsx ..
  | .rolAbsx .. | .andLongx .. | .rti | .eorIdpx .. | .wdm .. | .eorSr .. | .mvp .. | .eorDp ..
  | .lsrDp .. | .eorIldp .. | .pha | .lsrAcc | .phk | .jmpAbs .. | .eorAbs .. | .lsrAbs ..
  | .eorLong .. | .bvc .. | .eorIdpy .. | .eorIdp .. | .eorIsry .. | .mvn .. | .eorDpx ..
  | .lsrDpx .. | .eorIldpy .. | .cli | .eorAbsy .. | .phy | .tcd | .jmlLong .. | .eorAbsx ..
  | .lsrAbsx .. | .eorLongx .. | .rts | .adcIdpx .. | .per .. | .adcSr .. | .stzDp ..
  | .adcDp .. | .rorDp .. | .adcIldp .. | .pla | .rorAcc | .rtl | .jmpInd .. | .adcAbs ..
  | .rorAbs .. | .adcLong .. | .bvs .. | .adcIdpy .. | .adcIdp .. | .adcIsry .. | .stzDpx ..
  | .adcDpx .. | .rorDpx .. | .adcIldpy .. | .sei | .adcAbsy .. | .ply | .tdc | .jmpIndx ..
  | .adcAbsx .. | .rorAbsx .. | .adcLongx .. | .bra .. | .staIdpx .. | .brl .. | .staSr ..
  | .styDp .. | .staDp .. | .stxDp .. | .staIldp .. | .dey | .txa | .phb | .styAbs ..
  | .staAbs .. | .stxAbs .. | .staLong .. | .bcc .. | .staIdpy .. | .staIdp .. | .staIsry ..
  | .styDpx .. | .staDpx .. | .stxDpy .. | .staIldpy .. | .tya | .staAbsy .. | .txs | .txy
  | .stzAbs .. | .staAbsx .. | .stzAbsx .. | .staLongx .. | .ldaIdpx .. | .ldaSr .. | .ldyDp ..
  | .ldaDp .. | .ldxDp .. | .ldaIldp .. | .tay | .tax | .plb | .ldyAbs .. | .ldaAbs ..
  | .ldxAbs .. | .ldaLong .. | .bcs .. | .ldaIdpy .. | .ldaIdp .. | .ldaIsry .. | .ldyDpx ..
  | .ldaDpx .. | .ldxDpy .. | .ldaIldpy .. | .clv | .ldaAbsy .. | .tsx | .tyx | .ldyAbsx ..
  | .ldaAbsx .. | .ldxAbsy .. | .ldaLongx .. | .cmpIdpx .. | .rep .. | .cmpSr .. | .cpyDp ..
  | .cmpDp .. | .decDp .. | .cmpIldp .. | .iny | .dex | .wai | .cpyAbs .. | .cmpAbs ..
  | .decAbs .. | .cmpLong .. | .bne .. | .cmpIdpy .. | .cmpIdp .. | .cmpIsry .. | .pei ..
  | .cmpDpx .. | .decDpx .. | .cmpIldpy .. | .cld | .cmpAbsy .. | .phx | .stp | .jmlIndl ..
  | .cmpAbsx .. | .decAbsx .. | .cmpLongx .. | .sbcIdpx .. | .sep .. | .sbcSr .. | .cpxDp ..
  | .sbcDp .. | .incDp .. | .sbcIldp .. | .inx | .nop | .xba | .cpxAbs .. | .sbcAbs ..
  | .incAbs .. | .sbcLong .. | .beq .. | .sbcIdpy .. | .sbcIdp .. | .sbcIsry .. | .pea ..
  | .sbcDpx .. | .incDpx .. | .sbcIldpy .. | .sed | .sbcAbsy .. | .plx | .xce | .jsrIndx ..
  | .sbcAbsx .. | .incAbsx .. | .sbcLongx .. => true

end Sys2Proof
end

