-- ==== Sys2Proof/Decode.lean ====
section
/-! DEFINITION. Decoding and encoding (R100 to R105): the opcode map, the operand bytes of each format, a
decoder total on any bytes, and the encoder. The byte-order helpers of the whole model stand here too. -/

namespace Sys2Proof

/-! ## Byte order and bit fields (R7, R73) -/

/-- Bits 7 to 0 of a word. -/
def lowByte (v : Word) : Byte := v.extractLsb' 0 8

/-- Bits 15 to 8 of a word. -/
def highByte (v : Word) : Byte := v.extractLsb' 8 8

/-- `hi:lo` (R7). -/
def joinBytes (hi lo : Byte) : Word := hi ++ lo

/-- A byte zero-extended to a word (R7). -/
def zeroExtend8 (b : Byte) : Word := b.setWidth 16

/-- A byte sign-extended to a word (R103, mode `rel8`). -/
def signExtend8 (b : Byte) : Word := b.signExtend 16

/-- `bank:offset` (R70). -/
def joinAddr (bank : Byte) (off : Word) : Addr := bank ++ off

/-- The bank byte of an address (R70). -/
def bankOf (a : Addr) : Byte := a.extractLsb' 16 8

/-- The offset of an address within its bank (R70). -/
def offsetOf (a : Addr) : Word := a.extractLsb' 0 16

/-! ## Operands of one byte or two (R8) -/

/-- The number of bits of a width. -/
def Width.bits : Width → Nat
  | .byte => 8
  | .word => 16

/-- `v & mask(w)`. -/
def Width.trunc (w : Width) (v : Word) : Word :=
  match w with
  | .byte => zeroExtend8 (lowByte v)
  | .word => v

/-- `v[msb(w)]`. -/
def Width.msb (w : Width) (v : Word) : Bool := v.getLsbD (w.bits - 1)

/-- `mask(w)`. -/
def Width.mask : Width → Word
  | .byte => 0x00FF
  | .word => 0xFFFF

/-! ## Decoding -/

/-- Why bytes are no instruction. All 256 opcodes are assigned (R107), so only too few bytes can be. -/
inductive DecodeError where
  /-- The bytes end before the instruction does. -/
  | truncated
  /-- The opcode map has no cell for the opcode byte; no byte is such an opcode (R105). -/
  | unassigned
deriving DecidableEq, Repr

/-- The operand bytes that follow an opcode, and the instruction they make (R101, R103). -/
inductive Shape where
  | plain (i : Instr)
  | byte (f : Byte → Instr)
  | word (f : Word → Instr)
  | long (f : Addr → Instr)
  /-- One byte when `P.M = 1`, else two. -/
  | immM (f : Word → Instr)
  /-- One byte when `P.X = 1`, else two. -/
  | immX (f : Word → Instr)
  /-- Block move: destination bank, then source bank. -/
  | banks (f : Byte → Byte → Instr)

/-- An immediate of one byte (flag set) or two, low byte first (R102, R103). -/
def readImmediate (narrow : Bool) (f : Word → Instr) : List Byte → Except DecodeError (Instr × List Byte)
  | o1 :: rest =>
    if narrow then .ok (f (zeroExtend8 o1), rest)
    else match rest with
      | o2 :: rest => .ok (f (joinBytes o2 o1), rest)
      | [] => .error .truncated
  | [] => .error .truncated

/-- Assemble the operand bytes after the opcode (R103); the bytes left over come back. -/
def Shape.read (m x : Bool) (sh : Shape) (bytes : List Byte) : Except DecodeError (Instr × List Byte) :=
  match sh with
  | .plain i => .ok (i, bytes)
  | .byte f =>
    match bytes with
    | o1 :: rest => .ok (f o1, rest)
    | _ => .error .truncated
  | .word f =>
    match bytes with
    | o1 :: o2 :: rest => .ok (f (joinBytes o2 o1), rest)
    | _ => .error .truncated
  | .long f =>
    match bytes with
    | o1 :: o2 :: o3 :: rest => .ok (f (joinAddr o3 (joinBytes o2 o1)), rest)
    | _ => .error .truncated
  | .immM f => readImmediate m f bytes
  | .immX f => readImmediate x f bytes
  | .banks f =>
    match bytes with
    | o1 :: o2 :: rest => .ok (f o1 o2, rest)
    | _ => .error .truncated

/-- Row 0x of the opcode map (R105). -/
def opcodeRow0 : List Shape :=
  [.byte .brk, .byte .oraIdpx, .byte .cop, .byte .oraSr,
   .byte .tsbDp, .byte .oraDp, .byte .aslDp, .byte .oraIldp,
   .plain .php, .immM .oraImm, .plain .aslAcc, .plain .phd,
   .word .tsbAbs, .word .oraAbs, .word .aslAbs, .long .oraLong]

/-- Row 1x of the opcode map (R105). -/
def opcodeRow1 : List Shape :=
  [.byte .bpl, .byte .oraIdpy, .byte .oraIdp, .byte .oraIsry,
   .byte .trbDp, .byte .oraDpx, .byte .aslDpx, .byte .oraIldpy,
   .plain .clc, .word .oraAbsy, .plain .incAcc, .plain .tcs,
   .word .trbAbs, .word .oraAbsx, .word .aslAbsx, .long .oraLongx]

/-- Row 2x of the opcode map (R105). -/
def opcodeRow2 : List Shape :=
  [.word .jsrAbs, .byte .andIdpx, .long .jsl, .byte .andSr,
   .byte .bitDp, .byte .andDp, .byte .rolDp, .byte .andIldp,
   .plain .plp, .immM .andImm, .plain .rolAcc, .plain .pld,
   .word .bitAbs, .word .andAbs, .word .rolAbs, .long .andLong]

/-- Row 3x of the opcode map (R105). -/
def opcodeRow3 : List Shape :=
  [.byte .bmi, .byte .andIdpy, .byte .andIdp, .byte .andIsry,
   .byte .bitDpx, .byte .andDpx, .byte .rolDpx, .byte .andIldpy,
   .plain .sec, .word .andAbsy, .plain .decAcc, .plain .tsc,
   .word .bitAbsx, .word .andAbsx, .word .rolAbsx, .long .andLongx]

/-- Row 4x of the opcode map (R105). -/
def opcodeRow4 : List Shape :=
  [.plain .rti, .byte .eorIdpx, .byte .wdm, .byte .eorSr,
   .banks .mvp, .byte .eorDp, .byte .lsrDp, .byte .eorIldp,
   .plain .pha, .immM .eorImm, .plain .lsrAcc, .plain .phk,
   .word .jmpAbs, .word .eorAbs, .word .lsrAbs, .long .eorLong]

/-- Row 5x of the opcode map (R105). -/
def opcodeRow5 : List Shape :=
  [.byte .bvc, .byte .eorIdpy, .byte .eorIdp, .byte .eorIsry,
   .banks .mvn, .byte .eorDpx, .byte .lsrDpx, .byte .eorIldpy,
   .plain .cli, .word .eorAbsy, .plain .phy, .plain .tcd,
   .long .jmlLong, .word .eorAbsx, .word .lsrAbsx, .long .eorLongx]

/-- Row 6x of the opcode map (R105). -/
def opcodeRow6 : List Shape :=
  [.plain .rts, .byte .adcIdpx, .word .per, .byte .adcSr,
   .byte .stzDp, .byte .adcDp, .byte .rorDp, .byte .adcIldp,
   .plain .pla, .immM .adcImm, .plain .rorAcc, .plain .rtl,
   .word .jmpInd, .word .adcAbs, .word .rorAbs, .long .adcLong]

/-- Row 7x of the opcode map (R105). -/
def opcodeRow7 : List Shape :=
  [.byte .bvs, .byte .adcIdpy, .byte .adcIdp, .byte .adcIsry,
   .byte .stzDpx, .byte .adcDpx, .byte .rorDpx, .byte .adcIldpy,
   .plain .sei, .word .adcAbsy, .plain .ply, .plain .tdc,
   .word .jmpIndx, .word .adcAbsx, .word .rorAbsx, .long .adcLongx]

/-- Row 8x of the opcode map (R105). -/
def opcodeRow8 : List Shape :=
  [.byte .bra, .byte .staIdpx, .word .brl, .byte .staSr,
   .byte .styDp, .byte .staDp, .byte .stxDp, .byte .staIldp,
   .plain .dey, .immM .bitImm, .plain .txa, .plain .phb,
   .word .styAbs, .word .staAbs, .word .stxAbs, .long .staLong]

/-- Row 9x of the opcode map (R105). -/
def opcodeRow9 : List Shape :=
  [.byte .bcc, .byte .staIdpy, .byte .staIdp, .byte .staIsry,
   .byte .styDpx, .byte .staDpx, .byte .stxDpy, .byte .staIldpy,
   .plain .tya, .word .staAbsy, .plain .txs, .plain .txy,
   .word .stzAbs, .word .staAbsx, .word .stzAbsx, .long .staLongx]

/-- Row Ax of the opcode map (R105). -/
def opcodeRowA : List Shape :=
  [.immX .ldyImm, .byte .ldaIdpx, .immX .ldxImm, .byte .ldaSr,
   .byte .ldyDp, .byte .ldaDp, .byte .ldxDp, .byte .ldaIldp,
   .plain .tay, .immM .ldaImm, .plain .tax, .plain .plb,
   .word .ldyAbs, .word .ldaAbs, .word .ldxAbs, .long .ldaLong]

/-- Row Bx of the opcode map (R105). -/
def opcodeRowB : List Shape :=
  [.byte .bcs, .byte .ldaIdpy, .byte .ldaIdp, .byte .ldaIsry,
   .byte .ldyDpx, .byte .ldaDpx, .byte .ldxDpy, .byte .ldaIldpy,
   .plain .clv, .word .ldaAbsy, .plain .tsx, .plain .tyx,
   .word .ldyAbsx, .word .ldaAbsx, .word .ldxAbsy, .long .ldaLongx]

/-- Row Cx of the opcode map (R105). -/
def opcodeRowC : List Shape :=
  [.immX .cpyImm, .byte .cmpIdpx, .byte .rep, .byte .cmpSr,
   .byte .cpyDp, .byte .cmpDp, .byte .decDp, .byte .cmpIldp,
   .plain .iny, .immM .cmpImm, .plain .dex, .plain .wai,
   .word .cpyAbs, .word .cmpAbs, .word .decAbs, .long .cmpLong]

/-- Row Dx of the opcode map (R105). -/
def opcodeRowD : List Shape :=
  [.byte .bne, .byte .cmpIdpy, .byte .cmpIdp, .byte .cmpIsry,
   .byte .pei, .byte .cmpDpx, .byte .decDpx, .byte .cmpIldpy,
   .plain .cld, .word .cmpAbsy, .plain .phx, .plain .stp,
   .word .jmlIndl, .word .cmpAbsx, .word .decAbsx, .long .cmpLongx]

/-- Row Ex of the opcode map (R105). -/
def opcodeRowE : List Shape :=
  [.immX .cpxImm, .byte .sbcIdpx, .byte .sep, .byte .sbcSr,
   .byte .cpxDp, .byte .sbcDp, .byte .incDp, .byte .sbcIldp,
   .plain .inx, .immM .sbcImm, .plain .nop, .plain .xba,
   .word .cpxAbs, .word .sbcAbs, .word .incAbs, .long .sbcLong]

/-- Row Fx of the opcode map (R105). -/
def opcodeRowF : List Shape :=
  [.byte .beq, .byte .sbcIdpy, .byte .sbcIdp, .byte .sbcIsry,
   .word .pea, .byte .sbcDpx, .byte .incDpx, .byte .sbcIldpy,
   .plain .sed, .word .sbcAbsy, .plain .plx, .plain .xce,
   .word .jsrIndx, .word .sbcAbsx, .word .incAbsx, .long .sbcLongx]

/-- The opcode map (R105): sixteen rows by high nibble, sixteen cells by low nibble. -/
def opcodeMap : List (List Shape) :=
  [opcodeRow0, opcodeRow1, opcodeRow2, opcodeRow3, opcodeRow4, opcodeRow5, opcodeRow6, opcodeRow7,
   opcodeRow8, opcodeRow9, opcodeRowA, opcodeRowB, opcodeRowC, opcodeRowD, opcodeRowE, opcodeRowF]

/-- The cell of an opcode byte. -/
def opcodeShape (op : Byte) : Option Shape :=
  opcodeMap[op.toNat / 16]?.bind fun row => row[op.toNat % 16]?

/-- Decode the instruction at the head of `bytes` under the width flags `m` and `x`; the bytes after it come
back too (R100, R102, R104). -/
def decode (m x : Bool) : List Byte → Except DecodeError (Instr × List Byte)
  | [] => .error .truncated
  | op :: rest =>
    match opcodeShape op with
    | some sh => sh.read m x rest
    | none => .error .unassigned

/-- The byte at position `k` of a little-endian number. -/
def byteOfNat (w k : Nat) : Byte := BitVec.ofNat 8 (w / 256 ^ k)

/-- The four bytes, lowest address first, of an instruction whose first `nbits` bits are `w` and whose other
bits are zero; the longest instruction has four bytes (R100). -/
def tableBytes (nbits w : Nat) : List Byte :=
  [byteOfNat (w % 2 ^ nbits) 0, byteOfNat (w % 2 ^ nbits) 1,
   byteOfNat (w % 2 ^ nbits) 2, byteOfNat (w % 2 ^ nbits) 3]

/-- What the decoder reads from an opcode-table word, with the widths in force after reset
(`P.M = P.X = 1`, R48). -/
def decodeTableWord (nbits w : Nat) : Option Instr :=
  match decode true true (tableBytes nbits w) with
  | .ok (i, _) => some i
  | .error _ => none

/-! ## Encoding -/

/-- The opcode byte of an instruction (R105). -/
def Instr.opcode : Instr → Byte
  | .brk .. => 0x00
  | .oraIdpx .. => 0x01
  | .cop .. => 0x02
  | .oraSr .. => 0x03
  | .tsbDp .. => 0x04
  | .oraDp .. => 0x05
  | .aslDp .. => 0x06
  | .oraIldp .. => 0x07
  | .php => 0x08
  | .oraImm .. => 0x09
  | .aslAcc => 0x0A
  | .phd => 0x0B
  | .tsbAbs .. => 0x0C
  | .oraAbs .. => 0x0D
  | .aslAbs .. => 0x0E
  | .oraLong .. => 0x0F
  | .bpl .. => 0x10
  | .oraIdpy .. => 0x11
  | .oraIdp .. => 0x12
  | .oraIsry .. => 0x13
  | .trbDp .. => 0x14
  | .oraDpx .. => 0x15
  | .aslDpx .. => 0x16
  | .oraIldpy .. => 0x17
  | .clc => 0x18
  | .oraAbsy .. => 0x19
  | .incAcc => 0x1A
  | .tcs => 0x1B
  | .trbAbs .. => 0x1C
  | .oraAbsx .. => 0x1D
  | .aslAbsx .. => 0x1E
  | .oraLongx .. => 0x1F
  | .jsrAbs .. => 0x20
  | .andIdpx .. => 0x21
  | .jsl .. => 0x22
  | .andSr .. => 0x23
  | .bitDp .. => 0x24
  | .andDp .. => 0x25
  | .rolDp .. => 0x26
  | .andIldp .. => 0x27
  | .plp => 0x28
  | .andImm .. => 0x29
  | .rolAcc => 0x2A
  | .pld => 0x2B
  | .bitAbs .. => 0x2C
  | .andAbs .. => 0x2D
  | .rolAbs .. => 0x2E
  | .andLong .. => 0x2F
  | .bmi .. => 0x30
  | .andIdpy .. => 0x31
  | .andIdp .. => 0x32
  | .andIsry .. => 0x33
  | .bitDpx .. => 0x34
  | .andDpx .. => 0x35
  | .rolDpx .. => 0x36
  | .andIldpy .. => 0x37
  | .sec => 0x38
  | .andAbsy .. => 0x39
  | .decAcc => 0x3A
  | .tsc => 0x3B
  | .bitAbsx .. => 0x3C
  | .andAbsx .. => 0x3D
  | .rolAbsx .. => 0x3E
  | .andLongx .. => 0x3F
  | .rti => 0x40
  | .eorIdpx .. => 0x41
  | .wdm .. => 0x42
  | .eorSr .. => 0x43
  | .mvp .. => 0x44
  | .eorDp .. => 0x45
  | .lsrDp .. => 0x46
  | .eorIldp .. => 0x47
  | .pha => 0x48
  | .eorImm .. => 0x49
  | .lsrAcc => 0x4A
  | .phk => 0x4B
  | .jmpAbs .. => 0x4C
  | .eorAbs .. => 0x4D
  | .lsrAbs .. => 0x4E
  | .eorLong .. => 0x4F
  | .bvc .. => 0x50
  | .eorIdpy .. => 0x51
  | .eorIdp .. => 0x52
  | .eorIsry .. => 0x53
  | .mvn .. => 0x54
  | .eorDpx .. => 0x55
  | .lsrDpx .. => 0x56
  | .eorIldpy .. => 0x57
  | .cli => 0x58
  | .eorAbsy .. => 0x59
  | .phy => 0x5A
  | .tcd => 0x5B
  | .jmlLong .. => 0x5C
  | .eorAbsx .. => 0x5D
  | .lsrAbsx .. => 0x5E
  | .eorLongx .. => 0x5F
  | .rts => 0x60
  | .adcIdpx .. => 0x61
  | .per .. => 0x62
  | .adcSr .. => 0x63
  | .stzDp .. => 0x64
  | .adcDp .. => 0x65
  | .rorDp .. => 0x66
  | .adcIldp .. => 0x67
  | .pla => 0x68
  | .adcImm .. => 0x69
  | .rorAcc => 0x6A
  | .rtl => 0x6B
  | .jmpInd .. => 0x6C
  | .adcAbs .. => 0x6D
  | .rorAbs .. => 0x6E
  | .adcLong .. => 0x6F
  | .bvs .. => 0x70
  | .adcIdpy .. => 0x71
  | .adcIdp .. => 0x72
  | .adcIsry .. => 0x73
  | .stzDpx .. => 0x74
  | .adcDpx .. => 0x75
  | .rorDpx .. => 0x76
  | .adcIldpy .. => 0x77
  | .sei => 0x78
  | .adcAbsy .. => 0x79
  | .ply => 0x7A
  | .tdc => 0x7B
  | .jmpIndx .. => 0x7C
  | .adcAbsx .. => 0x7D
  | .rorAbsx .. => 0x7E
  | .adcLongx .. => 0x7F
  | .bra .. => 0x80
  | .staIdpx .. => 0x81
  | .brl .. => 0x82
  | .staSr .. => 0x83
  | .styDp .. => 0x84
  | .staDp .. => 0x85
  | .stxDp .. => 0x86
  | .staIldp .. => 0x87
  | .dey => 0x88
  | .bitImm .. => 0x89
  | .txa => 0x8A
  | .phb => 0x8B
  | .styAbs .. => 0x8C
  | .staAbs .. => 0x8D
  | .stxAbs .. => 0x8E
  | .staLong .. => 0x8F
  | .bcc .. => 0x90
  | .staIdpy .. => 0x91
  | .staIdp .. => 0x92
  | .staIsry .. => 0x93
  | .styDpx .. => 0x94
  | .staDpx .. => 0x95
  | .stxDpy .. => 0x96
  | .staIldpy .. => 0x97
  | .tya => 0x98
  | .staAbsy .. => 0x99
  | .txs => 0x9A
  | .txy => 0x9B
  | .stzAbs .. => 0x9C
  | .staAbsx .. => 0x9D
  | .stzAbsx .. => 0x9E
  | .staLongx .. => 0x9F
  | .ldyImm .. => 0xA0
  | .ldaIdpx .. => 0xA1
  | .ldxImm .. => 0xA2
  | .ldaSr .. => 0xA3
  | .ldyDp .. => 0xA4
  | .ldaDp .. => 0xA5
  | .ldxDp .. => 0xA6
  | .ldaIldp .. => 0xA7
  | .tay => 0xA8
  | .ldaImm .. => 0xA9
  | .tax => 0xAA
  | .plb => 0xAB
  | .ldyAbs .. => 0xAC
  | .ldaAbs .. => 0xAD
  | .ldxAbs .. => 0xAE
  | .ldaLong .. => 0xAF
  | .bcs .. => 0xB0
  | .ldaIdpy .. => 0xB1
  | .ldaIdp .. => 0xB2
  | .ldaIsry .. => 0xB3
  | .ldyDpx .. => 0xB4
  | .ldaDpx .. => 0xB5
  | .ldxDpy .. => 0xB6
  | .ldaIldpy .. => 0xB7
  | .clv => 0xB8
  | .ldaAbsy .. => 0xB9
  | .tsx => 0xBA
  | .tyx => 0xBB
  | .ldyAbsx .. => 0xBC
  | .ldaAbsx .. => 0xBD
  | .ldxAbsy .. => 0xBE
  | .ldaLongx .. => 0xBF
  | .cpyImm .. => 0xC0
  | .cmpIdpx .. => 0xC1
  | .rep .. => 0xC2
  | .cmpSr .. => 0xC3
  | .cpyDp .. => 0xC4
  | .cmpDp .. => 0xC5
  | .decDp .. => 0xC6
  | .cmpIldp .. => 0xC7
  | .iny => 0xC8
  | .cmpImm .. => 0xC9
  | .dex => 0xCA
  | .wai => 0xCB
  | .cpyAbs .. => 0xCC
  | .cmpAbs .. => 0xCD
  | .decAbs .. => 0xCE
  | .cmpLong .. => 0xCF
  | .bne .. => 0xD0
  | .cmpIdpy .. => 0xD1
  | .cmpIdp .. => 0xD2
  | .cmpIsry .. => 0xD3
  | .pei .. => 0xD4
  | .cmpDpx .. => 0xD5
  | .decDpx .. => 0xD6
  | .cmpIldpy .. => 0xD7
  | .cld => 0xD8
  | .cmpAbsy .. => 0xD9
  | .phx => 0xDA
  | .stp => 0xDB
  | .jmlIndl .. => 0xDC
  | .cmpAbsx .. => 0xDD
  | .decAbsx .. => 0xDE
  | .cmpLongx .. => 0xDF
  | .cpxImm .. => 0xE0
  | .sbcIdpx .. => 0xE1
  | .sep .. => 0xE2
  | .sbcSr .. => 0xE3
  | .cpxDp .. => 0xE4
  | .sbcDp .. => 0xE5
  | .incDp .. => 0xE6
  | .sbcIldp .. => 0xE7
  | .inx => 0xE8
  | .sbcImm .. => 0xE9
  | .nop => 0xEA
  | .xba => 0xEB
  | .cpxAbs .. => 0xEC
  | .sbcAbs .. => 0xED
  | .incAbs .. => 0xEE
  | .sbcLong .. => 0xEF
  | .beq .. => 0xF0
  | .sbcIdpy .. => 0xF1
  | .sbcIdp .. => 0xF2
  | .sbcIsry .. => 0xF3
  | .pea .. => 0xF4
  | .sbcDpx .. => 0xF5
  | .incDpx .. => 0xF6
  | .sbcIldpy .. => 0xF7
  | .sed => 0xF8
  | .sbcAbsy .. => 0xF9
  | .plx => 0xFA
  | .xce => 0xFB
  | .jsrIndx .. => 0xFC
  | .sbcAbsx .. => 0xFD
  | .incAbsx .. => 0xFE
  | .sbcLongx .. => 0xFF

/-- The operand of an instruction in its addressing mode (R101, R105). -/
def Instr.operand : Instr → Operand
  | .brk b => .sig b
  | .oraIdpx d => .data (.idpx d)
  | .cop b => .sig b
  | .oraSr d => .data (.sr d)
  | .tsbDp d => .data (.dp d)
  | .oraDp d => .data (.dp d)
  | .aslDp d => .data (.dp d)
  | .oraIldp d => .data (.ildp d)
  | .php => .imp
  | .oraImm v => .immM v
  | .aslAcc => .acc
  | .phd => .imp
  | .tsbAbs a => .data (.abs a)
  | .oraAbs a => .data (.abs a)
  | .aslAbs a => .data (.abs a)
  | .oraLong al => .data (.long al)
  | .bpl o => .rel8 o
  | .oraIdpy d => .data (.idpy d)
  | .oraIdp d => .data (.idp d)
  | .oraIsry d => .data (.isry d)
  | .trbDp d => .data (.dp d)
  | .oraDpx d => .data (.dpx d)
  | .aslDpx d => .data (.dpx d)
  | .oraIldpy d => .data (.ildpy d)
  | .clc => .imp
  | .oraAbsy a => .data (.absy a)
  | .incAcc => .acc
  | .tcs => .imp
  | .trbAbs a => .data (.abs a)
  | .oraAbsx a => .data (.absx a)
  | .aslAbsx a => .data (.absx a)
  | .oraLongx al => .data (.longx al)
  | .jsrAbs a => .data (.abs a)
  | .andIdpx d => .data (.idpx d)
  | .jsl al => .data (.long al)
  | .andSr d => .data (.sr d)
  | .bitDp d => .data (.dp d)
  | .andDp d => .data (.dp d)
  | .rolDp d => .data (.dp d)
  | .andIldp d => .data (.ildp d)
  | .plp => .imp
  | .andImm v => .immM v
  | .rolAcc => .acc
  | .pld => .imp
  | .bitAbs a => .data (.abs a)
  | .andAbs a => .data (.abs a)
  | .rolAbs a => .data (.abs a)
  | .andLong al => .data (.long al)
  | .bmi o => .rel8 o
  | .andIdpy d => .data (.idpy d)
  | .andIdp d => .data (.idp d)
  | .andIsry d => .data (.isry d)
  | .bitDpx d => .data (.dpx d)
  | .andDpx d => .data (.dpx d)
  | .rolDpx d => .data (.dpx d)
  | .andIldpy d => .data (.ildpy d)
  | .sec => .imp
  | .andAbsy a => .data (.absy a)
  | .decAcc => .acc
  | .tsc => .imp
  | .bitAbsx a => .data (.absx a)
  | .andAbsx a => .data (.absx a)
  | .rolAbsx a => .data (.absx a)
  | .andLongx al => .data (.longx al)
  | .rti => .imp
  | .eorIdpx d => .data (.idpx d)
  | .wdm b => .sig b
  | .eorSr d => .data (.sr d)
  | .mvp dst src => .blk dst src
  | .eorDp d => .data (.dp d)
  | .lsrDp d => .data (.dp d)
  | .eorIldp d => .data (.ildp d)
  | .pha => .imp
  | .eorImm v => .immM v
  | .lsrAcc => .acc
  | .phk => .imp
  | .jmpAbs a => .data (.abs a)
  | .eorAbs a => .data (.abs a)
  | .lsrAbs a => .data (.abs a)
  | .eorLong al => .data (.long al)
  | .bvc o => .rel8 o
  | .eorIdpy d => .data (.idpy d)
  | .eorIdp d => .data (.idp d)
  | .eorIsry d => .data (.isry d)
  | .mvn dst src => .blk dst src
  | .eorDpx d => .data (.dpx d)
  | .lsrDpx d => .data (.dpx d)
  | .eorIldpy d => .data (.ildpy d)
  | .cli => .imp
  | .eorAbsy a => .data (.absy a)
  | .phy => .imp
  | .tcd => .imp
  | .jmlLong al => .data (.long al)
  | .eorAbsx a => .data (.absx a)
  | .lsrAbsx a => .data (.absx a)
  | .eorLongx al => .data (.longx al)
  | .rts => .imp
  | .adcIdpx d => .data (.idpx d)
  | .per o => .rel16 o
  | .adcSr d => .data (.sr d)
  | .stzDp d => .data (.dp d)
  | .adcDp d => .data (.dp d)
  | .rorDp d => .data (.dp d)
  | .adcIldp d => .data (.ildp d)
  | .pla => .imp
  | .adcImm v => .immM v
  | .rorAcc => .acc
  | .rtl => .imp
  | .jmpInd a => .ind a
  | .adcAbs a => .data (.abs a)
  | .rorAbs a => .data (.abs a)
  | .adcLong al => .data (.long al)
  | .bvs o => .rel8 o
  | .adcIdpy d => .data (.idpy d)
  | .adcIdp d => .data (.idp d)
  | .adcIsry d => .data (.isry d)
  | .stzDpx d => .data (.dpx d)
  | .adcDpx d => .data (.dpx d)
  | .rorDpx d => .data (.dpx d)
  | .adcIldpy d => .data (.ildpy d)
  | .sei => .imp
  | .adcAbsy a => .data (.absy a)
  | .ply => .imp
  | .tdc => .imp
  | .jmpIndx a => .indx a
  | .adcAbsx a => .data (.absx a)
  | .rorAbsx a => .data (.absx a)
  | .adcLongx al => .data (.longx al)
  | .bra o => .rel8 o
  | .staIdpx d => .data (.idpx d)
  | .brl o => .rel16 o
  | .staSr d => .data (.sr d)
  | .styDp d => .data (.dp d)
  | .staDp d => .data (.dp d)
  | .stxDp d => .data (.dp d)
  | .staIldp d => .data (.ildp d)
  | .dey => .imp
  | .bitImm v => .immM v
  | .txa => .imp
  | .phb => .imp
  | .styAbs a => .data (.abs a)
  | .staAbs a => .data (.abs a)
  | .stxAbs a => .data (.abs a)
  | .staLong al => .data (.long al)
  | .bcc o => .rel8 o
  | .staIdpy d => .data (.idpy d)
  | .staIdp d => .data (.idp d)
  | .staIsry d => .data (.isry d)
  | .styDpx d => .data (.dpx d)
  | .staDpx d => .data (.dpx d)
  | .stxDpy d => .data (.dpy d)
  | .staIldpy d => .data (.ildpy d)
  | .tya => .imp
  | .staAbsy a => .data (.absy a)
  | .txs => .imp
  | .txy => .imp
  | .stzAbs a => .data (.abs a)
  | .staAbsx a => .data (.absx a)
  | .stzAbsx a => .data (.absx a)
  | .staLongx al => .data (.longx al)
  | .ldyImm v => .immX v
  | .ldaIdpx d => .data (.idpx d)
  | .ldxImm v => .immX v
  | .ldaSr d => .data (.sr d)
  | .ldyDp d => .data (.dp d)
  | .ldaDp d => .data (.dp d)
  | .ldxDp d => .data (.dp d)
  | .ldaIldp d => .data (.ildp d)
  | .tay => .imp
  | .ldaImm v => .immM v
  | .tax => .imp
  | .plb => .imp
  | .ldyAbs a => .data (.abs a)
  | .ldaAbs a => .data (.abs a)
  | .ldxAbs a => .data (.abs a)
  | .ldaLong al => .data (.long al)
  | .bcs o => .rel8 o
  | .ldaIdpy d => .data (.idpy d)
  | .ldaIdp d => .data (.idp d)
  | .ldaIsry d => .data (.isry d)
  | .ldyDpx d => .data (.dpx d)
  | .ldaDpx d => .data (.dpx d)
  | .ldxDpy d => .data (.dpy d)
  | .ldaIldpy d => .data (.ildpy d)
  | .clv => .imp
  | .ldaAbsy a => .data (.absy a)
  | .tsx => .imp
  | .tyx => .imp
  | .ldyAbsx a => .data (.absx a)
  | .ldaAbsx a => .data (.absx a)
  | .ldxAbsy a => .data (.absy a)
  | .ldaLongx al => .data (.longx al)
  | .cpyImm v => .immX v
  | .cmpIdpx d => .data (.idpx d)
  | .rep k => .imm8 k
  | .cmpSr d => .data (.sr d)
  | .cpyDp d => .data (.dp d)
  | .cmpDp d => .data (.dp d)
  | .decDp d => .data (.dp d)
  | .cmpIldp d => .data (.ildp d)
  | .iny => .imp
  | .cmpImm v => .immM v
  | .dex => .imp
  | .wai => .imp
  | .cpyAbs a => .data (.abs a)
  | .cmpAbs a => .data (.abs a)
  | .decAbs a => .data (.abs a)
  | .cmpLong al => .data (.long al)
  | .bne o => .rel8 o
  | .cmpIdpy d => .data (.idpy d)
  | .cmpIdp d => .data (.idp d)
  | .cmpIsry d => .data (.isry d)
  | .pei d => .data (.idp d)
  | .cmpDpx d => .data (.dpx d)
  | .decDpx d => .data (.dpx d)
  | .cmpIldpy d => .data (.ildpy d)
  | .cld => .imp
  | .cmpAbsy a => .data (.absy a)
  | .phx => .imp
  | .stp => .imp
  | .jmlIndl a => .indl a
  | .cmpAbsx a => .data (.absx a)
  | .decAbsx a => .data (.absx a)
  | .cmpLongx al => .data (.longx al)
  | .cpxImm v => .immX v
  | .sbcIdpx d => .data (.idpx d)
  | .sep k => .imm8 k
  | .sbcSr d => .data (.sr d)
  | .cpxDp d => .data (.dp d)
  | .sbcDp d => .data (.dp d)
  | .incDp d => .data (.dp d)
  | .sbcIldp d => .data (.ildp d)
  | .inx => .imp
  | .sbcImm v => .immM v
  | .nop => .imp
  | .xba => .imp
  | .cpxAbs a => .data (.abs a)
  | .sbcAbs a => .data (.abs a)
  | .incAbs a => .data (.abs a)
  | .sbcLong al => .data (.long al)
  | .beq o => .rel8 o
  | .sbcIdpy d => .data (.idpy d)
  | .sbcIdp d => .data (.idp d)
  | .sbcIsry d => .data (.isry d)
  | .pea v => .imm16 v
  | .sbcDpx d => .data (.dpx d)
  | .incDpx d => .data (.dpx d)
  | .sbcIldpy d => .data (.ildpy d)
  | .sed => .imp
  | .sbcAbsy a => .data (.absy a)
  | .plx => .imp
  | .xce => .imp
  | .jsrIndx a => .indx a
  | .sbcAbsx a => .data (.absx a)
  | .incAbsx a => .data (.absx a)
  | .sbcLongx al => .data (.longx al)

/-- The mode id of a memory mode (R101). -/
def MemMode.format : MemMode → Format
  | .abs _ => .abs
  | .absx _ => .absx
  | .absy _ => .absy
  | .long _ => .long
  | .longx _ => .longx
  | .dp _ => .dp
  | .dpx _ => .dpx
  | .dpy _ => .dpy
  | .idp _ => .idp
  | .idpx _ => .idpx
  | .idpy _ => .idpy
  | .ildp _ => .ildp
  | .ildpy _ => .ildpy
  | .sr _ => .sr
  | .isry _ => .isry

/-- The mode id of an operand (R101). -/
def Operand.format : Operand → Format
  | .imp => .imp
  | .acc => .acc
  | .immM _ => .immM
  | .immX _ => .immX
  | .imm8 _ => .imm8
  | .imm16 _ => .imm16
  | .sig _ => .sig
  | .data md => md.format
  | .ind _ => .ind
  | .indx _ => .indx
  | .indl _ => .indl
  | .rel8 _ => .rel8
  | .rel16 _ => .rel16
  | .blk _ _ => .blk

/-- The two operand bytes of a word, low byte first (R101). -/
def wordBytes (v : Word) : List Byte := [lowByte v, highByte v]

/-- The three operand bytes of a long address: low, high, bank (R101). -/
def longBytes (al : Addr) : List Byte := [lowByte (offsetOf al), highByte (offsetOf al), bankOf al]

/-- The operand bytes of a memory mode (R101). -/
def MemMode.bytes : MemMode → List Byte
  | .abs a | .absx a | .absy a => wordBytes a
  | .long al | .longx al => longBytes al
  | .dp d | .dpx d | .dpy d | .idp d | .idpx d | .idpy d | .ildp d | .ildpy d | .sr d | .isry d => [d]

/-- An immediate operand's bytes at the width its flag selects (R102). -/
def immediateBytes (narrow : Bool) (v : Word) : List Byte := if narrow then [lowByte v] else wordBytes v

/-- The operand bytes of an instruction, in ascending address order (R101, R102). -/
def Operand.bytes (m x : Bool) : Operand → List Byte
  | .imp | .acc => []
  | .immM v => immediateBytes m v
  | .immX v => immediateBytes x v
  | .imm8 k => [k]
  | .imm16 v => wordBytes v
  | .sig b => [b]
  | .data md => md.bytes
  | .ind a | .indx a | .indl a => wordBytes a
  | .rel8 o => [o]
  | .rel16 o => wordBytes o
  | .blk dst src => [dst, src]

/-- The bytes of an instruction under the width flags (R100). -/
def encode (m x : Bool) (i : Instr) : List Byte := i.opcode :: i.operand.bytes m x

/-- How many bytes a memory mode's operand has (R102). -/
def MemMode.size : MemMode → Nat
  | .abs _ | .absx _ | .absy _ => 2
  | .long _ | .longx _ => 3
  | .dp _ | .dpx _ | .dpy _ | .idp _ | .idpx _ | .idpy _ | .ildp _ | .ildpy _ | .sr _ | .isry _ => 1

/-- `operand_bytes` of R102. -/
def Operand.size (m x : Bool) : Operand → Nat
  | .imp | .acc => 0
  | .sig _ | .imm8 _ | .rel8 _ => 1
  | .imm16 _ | .ind _ | .indx _ | .indl _ | .rel16 _ | .blk _ _ => 2
  | .immM _ => if m then 1 else 2
  | .immX _ => if x then 1 else 2
  | .data md => md.size

/-- `length` of R102. -/
def Instr.length (m x : Bool) (i : Instr) : Nat := 1 + i.operand.size m x

end Sys2Proof
end

