-- ==== Sys2Proof/Machine/State.lean ====
section
/-! DEFINITION. The state of the machine as plain data, the reasons a step can stop, and the state after
reset. -/

namespace Sys2Proof.Machine

/-- Memory: the listed bytes, addresses strictly rising, none equal to what an unlisted address reads as
(`Memory.wf`). One flat space of 2^24 bytes (R70). -/
abbrev Memory := List Host.Cell

/-- What an address nothing has written reads as. DESIGN CHOICE (log 6), unsafe: the spec gives RAM no initial
contents (R48, R79). -/
def Memory.unlisted : Byte := 0x00

/-- The flags of P, by the names of R31. -/
inductive Flag where
  | n
  | v
  | m
  | x
  | d
  | i
  | z
  | c
deriving DecidableEq, Repr

/-- `run` of R45. -/
inductive RunState where
  | running
  | waiting
  | stopped
deriving DecidableEq, Repr

/-- The events that enter a handler through the stack and a vector (R400); RESET is not one of them. -/
inductive IntKind where
  | brk
  | cop
  | irq
  | nmi
  | abort
deriving DecidableEq, Repr

/-- What the environment does to the inputs before one check: the levels of IRQ, RESB and ABORTB, and whether
an NMI edge occurred (`IntSchedule` of R5). -/
structure EnvInput where
  irq     : Bool
  nmiEdge : Bool
  reset   : Bool
  abort   : Bool
deriving DecidableEq, Repr

/-- The machine. Registers are R20's, at their stored widths; the fields from `run` to `resetReq` are R45's;
`schedule` and `platform` are the open parameters of R5; `mem` is R70's memory; `draws` is the model's own. -/
structure State where
  /-- The 16-bit accumulator `C = B:A` (R21). -/
  c : Word
  /-- Index register X (R22). -/
  x : Word
  /-- Index register Y (R22). -/
  y : Word
  /-- Stack pointer S (R24). -/
  sp : Word
  /-- Direct page register D (R26). -/
  d : Word
  /-- Data bank register (R27). -/
  dbr : Byte
  /-- Program bank register (R28). -/
  pbr : Byte
  /-- Program counter (R29). -/
  pc : Word
  /-- Processor status (R31): N V m x D I Z C from bit 7 down to bit 0. -/
  p : Byte
  /-- Emulation flag (R40). -/
  e : Bool
  /-- Running, waiting after WAI or stopped after STP (R45). -/
  run : RunState
  /-- A falling NMI edge not taken yet (R45, R402). -/
  nmiPending : Bool
  /-- The level of the IRQ input (R45, R402). -/
  irqLine : Bool
  /-- The ABORTB input; without effect unless `platform.hasAbort` (R45, R420). -/
  abortReq : Bool
  /-- The RESB input (R45, R450). -/
  resetReq : Bool
  /-- The environment's inputs at the coming checks, the next check first; when the list is used up the
  levels stay as they are and no further NMI edge comes (R404, R5). -/
  schedule : List EnvInput
  /-- The parameters the platform fixes (R5). -/
  platform : Platform
  /-- The bytes of memory (R70). -/
  mem : Memory
  /-- The model's own: how many draws of free values were made; every use of a free value is at this count. -/
  draws : Nat
deriving DecidableEq, Repr

/-- Why a step stops in a fault: the machine has no fault, so this type has no constructor. R400 and R401 list
every event; none of them stops the machine, and every address is legal. -/
inductive Fault where
deriving DecidableEq, Repr

/-- Why a step has no meaning. -/
inductive Refusal where
  /-- Raised by `exec` for an instruction without a meaning; no arm of this model raises it. Safe. -/
  | notModelled (mnemonic : String)
  /-- Raised by `step` when the fetched bytes do not decode; never raised, since a fetch hands over four bytes
  and every opcode is assigned (R100, R107). Safe. -/
  | undecodable
  /-- Raised by `step` under `platform.emuExt = refuse` alone, where R6, R163 and R420 say so. Safe. -/
  | emuExt
deriving DecidableEq, Repr

/-- What a meaning answers. -/
abbrev Result := Host.Outcome State Fault Refusal

/-- The platform a run from reset has: the chip's emulation mode, no ABORT, the candidate decimal algorithm,
RAM everywhere (R5, R6, D7, D9, D12; log 2, 3, 4, 5). -/
def Platform.default : Platform :=
  { emuExt := .chip, hasAbort := false, bcd := .candidate, memMap := [] }

/-- The machine right after reset (R48, R450). The values of C, XL, YL, SL, N, V, Z and C are the model's
choice (log 7); PC is the vector that empty memory holds at `$00FFFC`. -/
def State.reset : State where
  c := 0
  x := 0
  y := 0
  sp := 0x0100
  d := 0
  dbr := 0
  pbr := 0
  pc := 0
  p := 0x34
  e := true
  run := .running
  nmiPending := false
  irqLine := false
  abortReq := false
  resetReq := false
  schedule := []
  platform := Platform.default
  mem := []
  draws := 0

end Sys2Proof.Machine
end

