-- ==== Sys2Proof/Machine/Ops.lean ====
section
/-! DEFINITION. The named operations over memory, registers, flags and the stack; taking an interrupt and
returning from one; the reset event; the check between steps; fetching an instruction. -/

namespace Sys2Proof.Machine

/-! ## Memory -/

/-- The byte listed at an address, or what an unlisted address reads as. -/
def Memory.get (a : Nat) : Memory → Byte
  | [] => Memory.unlisted
  | (b, v) :: m => if a = b then v else Memory.get a m

/-- Remove what is listed at an address. -/
def Memory.erase (a : Nat) : Memory → Memory
  | [] => []
  | (b, v) :: m => if a = b then Memory.erase a m else (b, v) :: Memory.erase a m

/-- List a byte at an address, in address order. -/
def Memory.insert (a : Nat) (v : Byte) : Memory → Memory
  | [] => [(a, v)]
  | (b, w) :: m =>
    if a < b then (a, v) :: (b, w) :: m
    else if a = b then (a, v) :: m
    else (b, w) :: Memory.insert a v m

/-- Write a byte, keeping the canonical form. -/
def Memory.set (a : Nat) (v : Byte) (m : Memory) : Memory :=
  if v = Memory.unlisted then Memory.erase a m else Memory.insert a v m

/-- Canonical from `lo` on: addresses from `lo` up, strictly rising, inside the 24-bit space, and no entry equal
to what an unlisted address reads as. -/
def Memory.wfFrom (lo : Nat) : Memory → Bool
  | [] => true
  | (a, v) :: m =>
    decide (lo ≤ a) && decide (a < 2 ^ 24) && decide (v ≠ Memory.unlisted) && Memory.wfFrom (a + 1) m

/-- The canonical form of memory. -/
def Memory.wf (m : Memory) : Bool := Memory.wfFrom 0 m

/-- Whether an address lies in a region. -/
def regionHolds (r : Region) (a : Nat) : Bool := decide (r.base ≤ a) && decide (a < r.base + r.size)

/-- What an address holds: the first region that has it, and RAM where none has (R79, D7). -/
def kindAt : List Region → Nat → RegionKind
  | [], _ => .ram
  | r :: rs, a => if regionHolds r a then r.kind else kindAt rs a

/-- `Mem[a]` as a read gives it (R9, R79). -/
def State.readByte (s : State) (a : Addr) : Byte :=
  match kindAt s.platform.memMap a.toNat with
  | .ram | .rom => Memory.get a.toNat s.mem
  | .io | .unmapped => Config.busByte s.draws a

/-- Memory after a write of one byte: only RAM changes (R9, R79). -/
def writeMem (map : List Region) (a : Addr) (v : Byte) (m : Memory) : Memory :=
  match kindAt map a.toNat with
  | .ram => Memory.set a.toNat v m
  | .rom | .io | .unmapped => m

/-- `Mem[a] <- v` (R9, R79). -/
def State.writeByte (s : State) (a : Addr) (v : Byte) : State :=
  { s with mem := writeMem s.platform.memMap a v s.mem }

/-- An effective address with the increment rule of its data (R74, R130). -/
inductive Ea where
  /-- `lin`: the next byte is at the next 24-bit address. -/
  | lin (a : Addr)
  /-- `b0`: an offset in bank `$00`; the next byte is at the next offset of the bank. -/
  | b0 (off : Word)
deriving DecidableEq, Repr

/-- The address of the first (low) byte. -/
def Ea.first : Ea → Addr
  | .lin a => a
  | .b0 off => joinAddr 0 off

/-- The address of the second (high) byte (R74). -/
def Ea.second : Ea → Addr
  | .lin a => a + 1
  | .b0 off => joinAddr 0 (off + 1)

/-- The addresses of the bytes an access of a width touches (R74, R76). -/
def Ea.addrs (ea : Ea) : Width → List Addr
  | .byte => [ea.first]
  | .word => [ea.first, ea.second]

/-- `Load(EA, kind, w)` (R130): low byte at the first address (R73). -/
def State.load (s : State) (ea : Ea) (w : Width) : Word :=
  match w with
  | .byte => zeroExtend8 (s.readByte ea.first)
  | .word => joinBytes (s.readByte ea.second) (s.readByte ea.first)

/-- `Store(EA, kind, w, v)` (R130). -/
def State.store (s : State) (ea : Ea) (w : Width) (v : Word) : State :=
  match w with
  | .byte => s.writeByte ea.first (lowByte v)
  | .word => (s.writeByte ea.first (lowByte v)).writeByte ea.second (highByte v)

/-- Two bytes at an offset of a bank, staying in the bank (R74's bank-wrap; `MemRead0` with bank `$00`). -/
def State.readInBank (s : State) (bank : Byte) (off : Word) : Word :=
  joinBytes (s.readByte (joinAddr bank (off + 1))) (s.readByte (joinAddr bank off))

/-- `MemRead0(off, 2)` (R9). -/
def State.read0 (s : State) (off : Word) : Word := s.readInBank 0 off

/-- `MemRead0(off, 3)` (R9): a 24-bit pointer in bank `$00`. -/
def State.readPtr24 (s : State) (off : Word) : Addr :=
  joinAddr (s.readByte (joinAddr 0 (off + 2))) (s.read0 off)

/-! ## Flags (R31 to R39) -/

/-- The bit of P a flag is (R31). -/
def Flag.bit : Flag → Nat
  | .n => 7
  | .v => 6
  | .m => 5
  | .x => 4
  | .d => 3
  | .i => 2
  | .z => 1
  | .c => 0

/-- A byte with one bit set or cleared. -/
def setBit (p : Byte) (k : Nat) (b : Bool) : Byte :=
  if b then p ||| (1#8 <<< k) else p &&& ~~~(1#8 <<< k)

/-- A flag of P. -/
def State.flag (s : State) (f : Flag) : Bool := s.p.getLsbD f.bit

/-- Set or clear one flag of P. -/
def State.setFlag (s : State) (f : Flag) (b : Bool) : State := { s with p := setBit s.p f.bit b }

/-! ## Registers at their current widths (R8, R21 to R23, R130) -/

/-- `wM`: one byte when `P.M = 1`. -/
def State.wM (s : State) : Width := if s.flag .m then .byte else .word

/-- `wX`: one byte when `P.X = 1`. -/
def State.wX (s : State) : Width := if s.flag .x then .byte else .word

/-- `Acc`: A or C (R8). -/
def State.acc (s : State) : Word := s.wM.trunc s.c

/-- A 16-bit register of which a write of width `w` replaces the low `w` bytes (R8, R21). -/
def withLow (old : Word) (w : Width) (v : Word) : Word :=
  match w with
  | .byte => joinBytes (highByte old) (lowByte v)
  | .word => v

/-- `Acc <- v`: with `P.M = 1` only A is written and B stays (R8, R21). -/
def State.setAcc (s : State) (v : Word) : State := { s with c := withLow s.c s.wM v }

/-- X read at its current width (R130). -/
def State.idxX (s : State) : Word := s.wX.trunc s.x

/-- Y read at its current width (R130). -/
def State.idxY (s : State) : Word := s.wX.trunc s.y

/-- Write X at its current width, zero-extended (R23). -/
def State.setX (s : State) (v : Word) : State := { s with x := s.wX.trunc v }

/-- Write Y at its current width, zero-extended (R23). -/
def State.setY (s : State) (v : Word) : State := { s with y := s.wX.trunc v }

/-- An index register after P was written: `P.X = 1` clears the high byte (R23). -/
def clampIndex (p : Byte) (v : Word) : Word := if p.getLsbD 4 then zeroExtend8 (lowByte v) else v

/-- P written by SEP, PLP or RTI: where `P.X` is 1 afterwards, XH and YH are cleared (R23). -/
def State.writeP (s : State) (p : Byte) : State :=
  { s with p := p, x := clampIndex p s.x, y := clampIndex p s.y }

/-- P pulled from the stack by PLP or RTI: bits 5 and 4 stay 1 while `E = 1` (R41, R292, R305). -/
def State.pulledP (s : State) (p : Byte) : State :=
  if s.e then { s with p := p ||| 0x30 } else s.writeP p

/-- S written by TXS or TCS: SH stays `$01` while `E = 1` (R336, R341). -/
def State.setSp (s : State) (v : Word) : State :=
  { s with sp := if s.e then joinBytes 0x01 (lowByte v) else v }

/-! ## The stack (R280 to R282) -/

/-- Which rule S follows inside an instruction while `E = 1` (`NewStack` of R280, R282). -/
inductive StackRule where
  /-- The inherited instructions and interrupt entry: S stays in page 1 after every byte. -/
  | page
  /-- The added instructions: S is 16 bits wide until the step ends. -/
  | wide
deriving DecidableEq, Repr

/-- S after a byte is pushed (R280). -/
def State.spDown (s : State) (k : StackRule) : Word :=
  match s.e, k with
  | true, .page => joinBytes 0x01 (lowByte s.sp - 1)
  | _, _ => s.sp - 1

/-- S before a byte is pulled (R281). -/
def State.spUp (s : State) (k : StackRule) : Word :=
  match s.e, k with
  | true, .page => joinBytes 0x01 (lowByte s.sp + 1)
  | _, _ => s.sp + 1

/-- The address S points to (R24). -/
def State.stackTop (s : State) : Addr := joinAddr 0 s.sp

/-- `Push8` (R280). -/
def State.push8 (s : State) (k : StackRule) (v : Byte) : State :=
  { s.writeByte s.stackTop v with sp := s.spDown k }

/-- `Push16`: high byte first (R282). -/
def State.push16 (s : State) (k : StackRule) (v : Word) : State :=
  (s.push8 k (highByte v)).push8 k (lowByte v)

/-- Push a register at a width (R283). -/
def State.pushW (s : State) (k : StackRule) (w : Width) (v : Word) : State :=
  match w with
  | .byte => s.push8 k (lowByte v)
  | .word => s.push16 k v

/-- The state after S moved up by one byte (R281). -/
def State.popped (s : State) (k : StackRule) : State := { s with sp := s.spUp k }

/-- The byte `Pull8` returns (R281). -/
def State.pull8 (s : State) (k : StackRule) : Byte := s.readByte (s.popped k).stackTop

/-- The word `Pull16` returns: low byte first (R282). -/
def State.pull16 (s : State) (k : StackRule) : Word :=
  joinBytes ((s.popped k).pull8 k) (s.pull8 k)

/-- What a pull of a width returns, zero-extended (R306 to R308). -/
def State.pullW (s : State) (k : StackRule) (w : Width) : Word :=
  match w with
  | .byte => zeroExtend8 (s.pull8 k)
  | .word => s.pull16 k

/-- The state after a pull of a width. -/
def State.poppedW (s : State) (k : StackRule) (w : Width) : State :=
  match w with
  | .byte => s.popped k
  | .word => (s.popped k).popped k

/-- `SH <- $01` at the end of every step for which `E = 1` (R25). -/
def State.forceStackPage (s : State) : State :=
  { s with sp := if s.e then joinBytes 0x01 (lowByte s.sp) else s.sp }

/-! ## Taking an interrupt and returning from one (R400, R410, R292) -/

/-- The vector of an event, by the value of E (R400, Table 4). -/
def vector (k : IntKind) (e : Bool) : Word :=
  match k, e with
  | .irq, true | .brk, true => 0xFFFE
  | .nmi, true => 0xFFFA
  | .abort, true => 0xFFF8
  | .cop, true => 0xFFF4
  | .irq, false => 0xFFEE
  | .nmi, false => 0xFFEA
  | .abort, false => 0xFFE8
  | .brk, false => 0xFFE6
  | .cop, false => 0xFFE4

/-- The copy of P an entry pushes: while `E = 1` bit 4 tells BRK and COP from the hardware events (R41, R410). -/
def State.pushedP (s : State) (k : IntKind) : Byte :=
  match s.e, k with
  | false, _ => s.p
  | true, .brk | true, .cop => s.p ||| 0x10
  | true, .irq | true, .nmi | true, .abort => s.p &&& ~~~0x10#8

/-- The stack frame of an entry: PBR in native mode, the return address PC, then P (R410). -/
def State.pushFrame (s : State) (k : IntKind) : State :=
  ((if s.e then s else s.push8 .page s.pbr).push16 .page s.pc).push8 .page (s.pushedP k)

/-- `enter(k)` of R410, the one way an interrupt is taken: the frame, `P.D <- 0`, `P.I <- 1`, `PBR <- $00`, PC
from the vector read after the pushes. The return address is PC as it stands. -/
def State.enter (s : State) (k : IntKind) : State :=
  let f := s.pushFrame k
  { f with
    p := setBit (setBit s.p 3 false) 2 true
    pbr := 0
    pc := f.read0 (vector k s.e)
    nmiPending := if k = .nmi then false else s.nmiPending }

/-- `RTI`, the return from an interrupt (R292, R425): P, PC and, in native mode, PBR from the stack. -/
def State.returnFromInterrupt (s : State) : State :=
  let s1 := s.popped .page
  let s2 := s1.poppedW .page .word
  let s3 := if s.e then s2 else s2.popped .page
  { s3.pulledP (s.pull8 .page) with
    pc := s1.pull16 .page
    pbr := if s.e then s.pbr else s2.pull8 .page }

/-- ABORT: the instruction at PC does nothing and the event enters with its address (R420). -/
def State.takeAbort (s : State) : State := { s with abortReq := false }.enter .abort

/-! ## Reset (R450) -/

/-- P after reset: m, x and I set, D clear, the other four drawn (R48). -/
def resetP (r : ResetDraw) : Byte :=
  setBit (setBit (setBit (setBit 0x34 7 r.n) 6 r.v) 1 r.z) 0 r.c

/-- The reset event with a given draw (R450). -/
def State.resetWith (s : State) (r : ResetDraw) : State :=
  { s with
    e := true
    p := resetP r
    c := joinBytes r.b r.a
    x := zeroExtend8 r.xl
    y := zeroExtend8 r.yl
    sp := joinBytes 0x01 r.sl
    d := 0
    dbr := 0
    pbr := 0
    run := .running
    nmiPending := false
    abortReq := false
    pc := s.read0 0xFFFC }

/-- The reset event; what R48 leaves unspecified is a free value. -/
def State.resetEvent (s : State) : State := s.resetWith (Config.resetDraw s.draws)

/-! ## The check between steps (R404) -/

/-- The environment's next inputs take effect; an NMI edge is remembered until it is taken (R402). -/
def State.pollInputs (s : State) : State :=
  match s.schedule with
  | [] => s
  | i :: rest =>
    { s with
      irqLine := i.irq
      resetReq := i.reset
      abortReq := i.abort
      nmiPending := s.nmiPending || i.nmiEdge
      schedule := rest }

/-- What the check finds to do. -/
inductive Action where
  | reset
  /-- Nothing happens. -/
  | idle
  | interrupt (k : IntKind)
  /-- The wait ends without an entry (R430). -/
  | wake
  | abort
  | execute
deriving DecidableEq, Repr

/-- The first of R404's eight cases that applies. -/
def State.check (s : State) : Action :=
  if s.resetReq then .reset
  else if s.run = .stopped then .idle
  else if s.nmiPending then .interrupt .nmi
  else if s.irqLine && !s.flag .i then .interrupt .irq
  else if s.run = .waiting ∧ s.irqLine then .wake
  else if s.run = .waiting then .idle
  else if s.platform.hasAbort && s.abortReq then .abort
  else .execute

/-- `run <- running`. -/
def State.resume (s : State) : State := { s with run := .running }

/-- A step that did something ends: SH is forced (R25) and the next step draws afresh. -/
def State.endStep (s : State) : State := { s.forceStackPage with draws := s.draws + 1 }

/-! ## Fetching (R10, R30, R100) -/

/-- The byte `k` places after PC, in bank PBR (R30). -/
def State.fetchByte (s : State) (k : Nat) : Byte := s.readByte (joinAddr s.pbr (s.pc + BitVec.ofNat 16 k))

/-- The four bytes from PC on, as many as the longest instruction has (R100). -/
def State.fetchBytes (s : State) : List Byte := [s.fetchByte 0, s.fetchByte 1, s.fetchByte 2, s.fetchByte 3]

/-- The instruction at `PBR:PC` under the current widths (R100, R104). -/
def State.fetchInstr (s : State) : Except DecodeError Instr :=
  match decode (s.flag .m) (s.flag .x) s.fetchBytes with
  | .ok (i, _) => .ok i
  | .error err => .error err

/-- PC past an instruction: `PCnext` (R10, R30). -/
def State.advance (s : State) (i : Instr) : State :=
  { s with pc := s.pc + BitVec.ofNat 16 (i.length (s.flag .m) (s.flag .x)) }

/-- Apply a function to the next state of an outcome. -/
def mapNext (f : State → State) : Result → Result
  | .next s => .next (f s)
  | .fault r => .fault r
  | .refused r => .refused r

/-- Whether a read of an address gives what is stored there. -/
def readsStored (k : RegionKind) : Bool := k = .ram || k = .rom

/-- A byte stored `k` places after PC whatever the address holds; an address that a read would not take from
memory becomes RAM. -/
def State.placeByte (s : State) (k : Nat) (v : Byte) : State :=
  let a := (joinAddr s.pbr (s.pc + BitVec.ofNat 16 k)).toNat
  { s with
    mem := Memory.set a v s.mem
    platform := { s.platform with
      memMap :=
        if readsStored (kindAt s.platform.memMap a) then s.platform.memMap
        else { base := a, size := 1, kind := .ram } :: s.platform.memMap } }

/-- Bytes stored from `k` places after PC on. -/
def State.placeBytes (s : State) (k : Nat) : List Byte → State
  | [] => s
  | v :: rest => (s.placeByte k v).placeBytes (k + 1) rest

/-- A state whose next step is case 8 of R404: running, no input asserted, none scheduled, nothing refused. -/
def State.readyToExecute (s : State) : State :=
  { s with
    run := .running
    nmiPending := false
    irqLine := false
    abortReq := false
    resetReq := false
    schedule := []
    platform := { s.platform with emuExt := .chip } }

end Sys2Proof.Machine
end

