-- ==== Sys2Proof/Machine/Flags.lean ====
section
/-! DEFINITION. Every flag computation of the spec: N and Z, binary and decimal addition and subtraction,
compare, shifts and rotates. Results are computed exactly and narrowed at the end. -/

namespace Sys2Proof.Machine

/-- The number 1 or 0 of a carry. -/
def carryNat (c : Bool) : Nat := if c then 1 else 0

/-- `v = 0` at a width (R38). -/
def isZero (w : Width) (v : Word) : Bool := w.trunc v == 0

/-- `SetNZ(v, w)` (R9, R32, R38). -/
def State.setNZ (s : State) (w : Width) (v : Word) : State :=
  (s.setFlag .z (isZero w v)).setFlag .n (w.msb v)

/-! ## Addition and subtraction (R190, R191) -/

/-- Binary addition of two operands of width `w` and a carry (R190). -/
def addBinary (w : Width) (a b : Word) (cin : Bool) : ArithResult :=
  let sum := a.toNat + b.toNat + carryNat cin
  let r := w.trunc (BitVec.ofNat 16 sum)
  { r := r
    c := decide (2 ^ w.bits ≤ sum)
    v := w.msb a == w.msb b && w.msb r != w.msb a }

/-- Binary subtraction: the addition of the one's complement (R191). -/
def subBinary (w : Width) (a b : Word) (cin : Bool) : ArithResult :=
  addBinary w a (b ^^^ w.mask) cin

/-! ## Decimal mode (R192) -/

/-- Nibble `i` of a number. -/
def nibble (n i : Nat) : Nat := n / 16 ^ i % 16

/-- The digit positions of a width but the top one. -/
def lowDigits : Width → List Nat
  | .byte => [0]
  | .word => [0, 1, 2]

/-- The position of the top digit of a width. -/
def topDigit : Width → Nat
  | .byte => 1
  | .word => 3

/-- All digit positions of a width. -/
def allDigits (w : Width) : List Nat := lowDigits w ++ [topDigit w]

/-- Valid BCD: every nibble is 0 to 9. -/
def validBcd (w : Width) (v : Word) : Bool := (allDigits w).all fun i => decide (nibble v.toNat i ≤ 9)

/-- The number whose decimal digits are the nibbles. -/
def decOf (w : Width) (v : Word) : Nat := ((allDigits w).map fun i => nibble v.toNat i * 10 ^ i).sum

/-- The nibbles of a number's decimal digits, at a width. -/
def bcdOf (w : Width) (n : Nat) : Word :=
  BitVec.ofNat 16 ((allDigits w).map fun i => n / 10 ^ i % 10 * 16 ^ i).sum

/-- `K = 10^(2w)`. -/
def decModulus : Width → Nat
  | .byte => 100
  | .word => 10000

/-- The low digits of the candidate addition: the carry into the next digit and the result so far. -/
def bcdAddLow (a b : Nat) : List Nat → Bool → Nat → Bool × Nat
  | [], c, r => (c, r)
  | i :: is, c, r =>
    let t := nibble a i + nibble b i + carryNat c
    let d := if 9 < t then t + 6 else t
    bcdAddLow a b is (decide (15 < d)) (r + d % 16 * 16 ^ i)

/-- The low digits of the candidate subtraction; `nb` is the complemented operand. A digit sum of at most 15 has
6 taken off, modulo 16. -/
def bcdSubLow (a nb : Nat) : List Nat → Bool → Nat → Bool × Nat
  | [], c, r => (c, r)
  | i :: is, c, r =>
    let t := nibble a i + nibble nb i + carryNat c
    let d := if t ≤ 15 then (t + 10) % 16 else t % 16
    bcdSubLow a nb is (decide (15 < t)) (r + d * 16 ^ i)

/-- The sum with the top digit added and not adjusted. -/
def bcdTop (w : Width) (a b : Nat) (low : Bool × Nat) : Nat :=
  low.2 + (nibble a (topDigit w) + nibble b (topDigit w) + carryNat low.1) * 16 ^ topDigit w

/-- Overflow of the candidate, taken before the top digit is adjusted. -/
def bcdOverflow (w : Width) (a b r : Word) : Bool := w.msb (~~~(a ^^^ b) &&& (a ^^^ r))

/-- R192's candidate `BCD.add`. -/
def bcdAddCandidate (w : Width) (a b : Word) (cin : Bool) : ArithResult :=
  let r0 := bcdTop w a.toNat b.toNat (bcdAddLow a.toNat b.toNat (lowDigits w) cin 0)
  let r1 := if 10 * 16 ^ topDigit w ≤ r0 then r0 + 6 * 16 ^ topDigit w else r0
  { r := w.trunc (BitVec.ofNat 16 r1)
    c := decide (2 ^ w.bits ≤ r1)
    v := bcdOverflow w a b (BitVec.ofNat 16 r0) }

/-- R192's candidate `BCD.sub`. -/
def bcdSubCandidate (w : Width) (a b : Word) (cin : Bool) : ArithResult :=
  let nb := b ^^^ w.mask
  let r0 := bcdTop w a.toNat nb.toNat (bcdSubLow a.toNat nb.toNat (lowDigits w) cin 0)
  { r := w.trunc (BitVec.ofNat 16 (if 2 ^ w.bits ≤ r0 then r0 else r0 + 2 ^ w.bits - 6 * 16 ^ topDigit w))
    c := decide (2 ^ w.bits ≤ r0)
    v := bcdOverflow w a nb (BitVec.ofNat 16 r0) }

/-- R192's law for an addition of valid operands: result and carry. -/
def bcdAddLaw (w : Width) (a b : Word) (cin : Bool) : Word × Bool :=
  let sum := decOf w a + decOf w b + carryNat cin
  (bcdOf w (sum % decModulus w), decide (decModulus w ≤ sum))

/-- R192's law for a subtraction of valid operands: result and carry (1 = no borrow). -/
def bcdSubLaw (w : Width) (a b : Word) (cin : Bool) : Word × Bool :=
  let less := decOf w b + (1 - carryNat cin)
  (bcdOf w ((decOf w a + decModulus w - less) % decModulus w), decide (less ≤ decOf w a))

/-- An uninterpreted decimal operation: on valid operands the law gives result and carry; everything else is a
free value (R192). -/
def bcdOpen (valid : Bool) (law : Word × Bool) (free : ArithResult) (w : Width) : ArithResult :=
  if valid then { r := law.1, c := law.2, v := free.v } else { free with r := w.trunc free.r }

/-- `BCD.add` under the platform's choice (R192). -/
def bcdAdd (choice : BcdChoice) (w : Width) (a b : Word) (cin : Bool) : ArithResult :=
  match choice with
  | .candidate => bcdAddCandidate w a b cin
  | .uninterpreted =>
    bcdOpen (validBcd w a && validBcd w b) (bcdAddLaw w a b cin) (Config.bcdAddOpen w a b cin) w

/-- `BCD.sub` under the platform's choice (R192). -/
def bcdSub (choice : BcdChoice) (w : Width) (a b : Word) (cin : Bool) : ArithResult :=
  match choice with
  | .candidate => bcdSubCandidate w a b cin
  | .uninterpreted =>
    bcdOpen (validBcd w a && validBcd w b) (bcdSubLaw w a b cin) (Config.bcdSubOpen w a b cin) w

/-- The result of ADC on the accumulator and an operand (R190). -/
def State.addResult (s : State) (b : Word) : ArithResult :=
  if s.flag .d then bcdAdd s.platform.bcd s.wM s.acc b (s.flag .c)
  else addBinary s.wM s.acc b (s.flag .c)

/-- The result of SBC on the accumulator and an operand (R191). -/
def State.subResult (s : State) (b : Word) : ArithResult :=
  if s.flag .d then bcdSub s.platform.bcd s.wM s.acc b (s.flag .c)
  else subBinary s.wM s.acc b (s.flag .c)

/-- `P.C <- c; P.V <- v; SetNZ(r, w); Acc <- r` (R190, R191). -/
def State.putArith (s : State) (res : ArithResult) : State :=
  (((s.setAcc res.r).setFlag .c res.c).setFlag .v res.v).setNZ s.wM res.r

/-- A compare of two operands of width `w`: C is the unsigned comparison, N and Z come from the difference
(R193). -/
def State.compare (s : State) (w : Width) (a b : Word) : State :=
  (s.setFlag .c (decide (b.toNat ≤ a.toNat))).setNZ w (w.trunc (a - b))

/-! ## Shifts and rotates (R240 to R243) -/

/-- The four operations of the family. -/
inductive ShiftOp where
  | asl
  | lsr
  | rol
  | ror
deriving DecidableEq, Repr

/-- The top bit of a width as a word. -/
def topBit (w : Width) (b : Bool) : Word := BitVec.ofNat 16 (carryNat b * 2 ^ (w.bits - 1))

/-- The result of a shift or rotate by one bit and the bit shifted out; `cin` is the old carry (R240 to R243). -/
def shiftResult (op : ShiftOp) (w : Width) (cin : Bool) (v : Word) : Word × Bool :=
  match op with
  | .asl => (w.trunc (v <<< 1), w.msb v)
  | .lsr => (v >>> 1, v.getLsbD 0)
  | .rol => (w.trunc (v <<< 1 ||| BitVec.ofNat 16 (carryNat cin)), w.msb v)
  | .ror => (v >>> 1 ||| topBit w cin, v.getLsbD 0)

end Sys2Proof.Machine
end

