-- ==== Sys2Proof/Machine/Operands.lean ====
section
/-! DEFINITION. Every operand form: effective addresses (R132 to R151), operand values, branch and jump targets
(R152 to R156), and the emulation-mode check of `EMU_EXT = refuse` (R6, R163). -/

namespace Sys2Proof.Machine

/-- Whether the direct page is page-aligned in emulation mode, where sums stay in its page (R140, R141). -/
def State.pageAligned (s : State) : Bool := s.e && lowByte s.d == 0

/-- `DirectAddr(off)` (R140). -/
def State.directAddr (s : State) (off : Word) : Word :=
  if s.pageAligned then joinBytes (highByte s.d) (lowByte off) else s.d + off

/-- Where `DirectPtr16` finds the pointer's high byte (R141). -/
def State.directPtrHigh (s : State) (off : Word) : Word :=
  if s.pageAligned then joinBytes (highByte s.d) (lowByte (off + 1)) else s.directAddr off + 1

/-- `DirectPtr16(off)` (R141). -/
def State.directPtr16 (s : State) (off : Word) : Word :=
  joinBytes (s.readByte (joinAddr 0 (s.directPtrHigh off))) (s.readByte (joinAddr 0 (s.directAddr off)))

/-- The case of mode (d,x) that R141 leaves open: `E = 1`, `DL` not zero and the pointer's low byte at an address
that ends in `$FF` (U6). -/
def State.idpxOpen (s : State) (off : Word) : Bool :=
  s.e && lowByte s.d != 0 && lowByte (s.directAddr off) == 0xFF

/-- The pointer of mode (d,x): `DirectPtr16`, with a free high byte in the open case (R141, R146; log 8). -/
def State.idpxPtr (s : State) (off : Word) : Word :=
  if s.idpxOpen off then joinBytes (Config.idpxPointerHigh s.draws) (s.readByte (joinAddr 0 (s.directAddr off)))
  else s.directPtr16 off

/-- `DBR:off` (R71). -/
def State.dataAddr (s : State) (off : Word) : Addr := joinAddr s.dbr off

/-- An index added to a 24-bit address, carrying into the bank (R74, R133). -/
def addIndex (a : Addr) (idx : Word) : Addr := a + idx.setWidth 24

/-- The address `d,s` names: S plus the offset, 16 bits wide in both modes (R150). -/
def State.stackRel (s : State) (d : Byte) : Word := s.sp + zeroExtend8 d

/-- `D + d`, never wrapping in the page: the long pointers and PEI (R148, R296). -/
def State.directLong (s : State) (d : Byte) : Word := s.d + zeroExtend8 d

/-- The effective address and increment rule of each memory mode (R132 to R151, R162). -/
def State.ea (s : State) : MemMode → Ea
  | .abs a => .lin (s.dataAddr a)
  | .absx a => .lin (addIndex (s.dataAddr a) s.idxX)
  | .absy a => .lin (addIndex (s.dataAddr a) s.idxY)
  | .long al => .lin al
  | .longx al => .lin (addIndex al s.idxX)
  | .dp d => .b0 (s.directAddr (zeroExtend8 d))
  | .dpx d => .b0 (s.directAddr (zeroExtend8 d + s.idxX))
  | .dpy d => .b0 (s.directAddr (zeroExtend8 d + s.idxY))
  | .idp d => .lin (s.dataAddr (s.directPtr16 (zeroExtend8 d)))
  | .idpx d => .lin (s.dataAddr (s.idpxPtr (zeroExtend8 d + s.idxX)))
  | .idpy d => .lin (addIndex (s.dataAddr (s.directPtr16 (zeroExtend8 d))) s.idxY)
  | .ildp d => .lin (s.readPtr24 (s.directLong d))
  | .ildpy d => .lin (addIndex (s.readPtr24 (s.directLong d)) s.idxY)
  | .sr d => .b0 (s.stackRel d)
  | .isry d => .lin (addIndex (s.dataAddr (s.read0 (s.stackRel d))) s.idxY)

/-- The operand value of a memory mode at a width. -/
def State.operand (s : State) (w : Width) (md : MemMode) : Word := s.load (s.ea md) w

/-- The target of a short branch; PC is the address of the next instruction (R155). -/
def State.branchTarget (s : State) (o : Byte) : Word := s.pc + signExtend8 o

/-- The target of BRL and the value PER pushes (R156). -/
def State.longTarget (s : State) (o : Word) : Word := s.pc + o

/-- The pointer of `JMP (a,x)` and `JSR (a,x)`, read in the program bank (R153). -/
def State.indexedTarget (s : State) (a : Word) : Word := s.readInBank s.pbr (a + s.idxX)

/-! ## The emulation-mode check of `EMU_EXT = refuse` (R6, R43, R109, R163) -/

/-- `LegacyClean` (R43). -/
def State.legacyClean (s : State) : Bool := !s.e || (s.d == 0 && s.dbr == 0 && s.pbr == 0)

/-- The opcodes of `EXT816` whose low nibble is not 3, 7 or F (R109). -/
def ext816Others : List Byte :=
  [0x22, 0x42, 0x62, 0x82, 0x44, 0x54, 0xD4, 0xF4,
   0x0B, 0x1B, 0x2B, 0x3B, 0x4B, 0x5B, 0x6B, 0x7B, 0x8B, 0x9B, 0xAB, 0xBB, 0xEB,
   0x5C, 0xDC, 0xFC]

/-- Membership in `EXT816` (R109). -/
def ext816 (op : Byte) : Bool := [3, 7, 15].contains (op.toNat % 16) || ext816Others.contains op

/-- The first byte of an effective address lies outside bank `$00` (R163). -/
def leavesBank0 (s : State) (i : Instr) : Bool :=
  match i.operand with
  | .data md => bankOf (s.ea md).first != 0
  | .imp | .acc | .immM _ | .immX _ | .imm8 _ | .imm16 _ | .sig _ | .ind _ | .indx _ | .indl _
  | .rel8 _ | .rel16 _ | .blk _ _ => false

/-- The check applies: `EMU_EXT = refuse` and `E = 1`. -/
def State.emuChecked (s : State) : Bool := s.platform.emuExt = .refuse && s.e

/-- A step is refused whatever it would do: the state is not legacy-clean (R6). -/
def State.emuRefusesState (s : State) : Bool := s.emuChecked && !s.legacyClean

/-- A step that would execute an instruction is refused for the instruction (R6, R109, R163). -/
def State.emuRefusesInstr (s : State) (i : Instr) : Bool :=
  s.emuChecked && (ext816 i.opcode || leavesBank0 s i)

end Sys2Proof.Machine
end

