-- ==== Sys2Proof/Machine/LoadStore.lean ====
section
/-! DEFINITION. The meanings of the load and store instructions. PC stands at the next instruction (`PCnext`, R10). -/

namespace Sys2Proof.Machine

/-- `Acc <- v; SetNZ(v, wM)` (R170). -/
def State.loadAcc (s : State) (v : Word) : State := (s.setAcc v).setNZ s.wM v

/-- `X <- zext_16(v); SetNZ(v, wX)` (R171). -/
def State.loadX (s : State) (v : Word) : State := (s.setX v).setNZ s.wX v

/-- `Y <- zext_16(v); SetNZ(v, wX)` (R172). -/
def State.loadY (s : State) (v : Word) : State := (s.setY v).setNZ s.wX v

/-- `LDA (d,x)` (`$A1`, R170, mode R146). -/
def execLdaIdpx (d : Byte) (s : State) : Result := .next (s.loadAcc (s.operand s.wM (.idpx d)))

/-- `LDA d,s` (`$A3`, R170, mode R150). -/
def execLdaSr (d : Byte) (s : State) : Result := .next (s.loadAcc (s.operand s.wM (.sr d)))

/-- `LDA d` (`$A5`, R170, mode R142). -/
def execLdaDp (d : Byte) (s : State) : Result := .next (s.loadAcc (s.operand s.wM (.dp d)))

/-- `LDA [d]` (`$A7`, R170, mode R148). -/
def execLdaIldp (d : Byte) (s : State) : Result := .next (s.loadAcc (s.operand s.wM (.ildp d)))

/-- `LDA #m` (`$A9`, R170, mode R131). -/
def execLdaImm (v : Word) (s : State) : Result := .next (s.loadAcc (s.wM.trunc v))

/-- `LDA a` (`$AD`, R170, mode R132). -/
def execLdaAbs (a : Word) (s : State) : Result := .next (s.loadAcc (s.operand s.wM (.abs a)))

/-- `LDA al` (`$AF`, R170, mode R135). -/
def execLdaLong (al : Addr) (s : State) : Result := .next (s.loadAcc (s.operand s.wM (.long al)))

/-- `LDA (d),y` (`$B1`, R170, mode R147). -/
def execLdaIdpy (d : Byte) (s : State) : Result := .next (s.loadAcc (s.operand s.wM (.idpy d)))

/-- `LDA (d)` (`$B2`, R170, mode R145). -/
def execLdaIdp (d : Byte) (s : State) : Result := .next (s.loadAcc (s.operand s.wM (.idp d)))

/-- `LDA (d,s),y` (`$B3`, R170, mode R151). -/
def execLdaIsry (d : Byte) (s : State) : Result := .next (s.loadAcc (s.operand s.wM (.isry d)))

/-- `LDA d,x` (`$B5`, R170, mode R143). -/
def execLdaDpx (d : Byte) (s : State) : Result := .next (s.loadAcc (s.operand s.wM (.dpx d)))

/-- `LDA [d],y` (`$B7`, R170, mode R149). -/
def execLdaIldpy (d : Byte) (s : State) : Result := .next (s.loadAcc (s.operand s.wM (.ildpy d)))

/-- `LDA a,y` (`$B9`, R170, mode R134). -/
def execLdaAbsy (a : Word) (s : State) : Result := .next (s.loadAcc (s.operand s.wM (.absy a)))

/-- `LDA a,x` (`$BD`, R170, mode R133). -/
def execLdaAbsx (a : Word) (s : State) : Result := .next (s.loadAcc (s.operand s.wM (.absx a)))

/-- `LDA al,x` (`$BF`, R170, mode R136). -/
def execLdaLongx (al : Addr) (s : State) : Result := .next (s.loadAcc (s.operand s.wM (.longx al)))

/-- `LDX #x` (`$A2`, R171, mode R131). -/
def execLdxImm (v : Word) (s : State) : Result := .next (s.loadX (s.wX.trunc v))

/-- `LDX d` (`$A6`, R171, mode R142). -/
def execLdxDp (d : Byte) (s : State) : Result := .next (s.loadX (s.operand s.wX (.dp d)))

/-- `LDX a` (`$AE`, R171, mode R132). -/
def execLdxAbs (a : Word) (s : State) : Result := .next (s.loadX (s.operand s.wX (.abs a)))

/-- `LDX d,y` (`$B6`, R171, mode R144). -/
def execLdxDpy (d : Byte) (s : State) : Result := .next (s.loadX (s.operand s.wX (.dpy d)))

/-- `LDX a,y` (`$BE`, R171, mode R134). -/
def execLdxAbsy (a : Word) (s : State) : Result := .next (s.loadX (s.operand s.wX (.absy a)))

/-- `LDY #x` (`$A0`, R172, mode R131). -/
def execLdyImm (v : Word) (s : State) : Result := .next (s.loadY (s.wX.trunc v))

/-- `LDY d` (`$A4`, R172, mode R142). -/
def execLdyDp (d : Byte) (s : State) : Result := .next (s.loadY (s.operand s.wX (.dp d)))

/-- `LDY a` (`$AC`, R172, mode R132). -/
def execLdyAbs (a : Word) (s : State) : Result := .next (s.loadY (s.operand s.wX (.abs a)))

/-- `LDY d,x` (`$B4`, R172, mode R143). -/
def execLdyDpx (d : Byte) (s : State) : Result := .next (s.loadY (s.operand s.wX (.dpx d)))

/-- `LDY a,x` (`$BC`, R172, mode R133). -/
def execLdyAbsx (a : Word) (s : State) : Result := .next (s.loadY (s.operand s.wX (.absx a)))

/-- `STA (d,x)` (`$81`, R173, mode R146). -/
def execStaIdpx (d : Byte) (s : State) : Result := .next (s.store (s.ea (.idpx d)) s.wM s.acc)

/-- `STA d,s` (`$83`, R173, mode R150). -/
def execStaSr (d : Byte) (s : State) : Result := .next (s.store (s.ea (.sr d)) s.wM s.acc)

/-- `STA d` (`$85`, R173, mode R142). -/
def execStaDp (d : Byte) (s : State) : Result := .next (s.store (s.ea (.dp d)) s.wM s.acc)

/-- `STA [d]` (`$87`, R173, mode R148). -/
def execStaIldp (d : Byte) (s : State) : Result := .next (s.store (s.ea (.ildp d)) s.wM s.acc)

/-- `STA a` (`$8D`, R173, mode R132). -/
def execStaAbs (a : Word) (s : State) : Result := .next (s.store (s.ea (.abs a)) s.wM s.acc)

/-- `STA al` (`$8F`, R173, mode R135). -/
def execStaLong (al : Addr) (s : State) : Result := .next (s.store (s.ea (.long al)) s.wM s.acc)

/-- `STA (d),y` (`$91`, R173, mode R147). -/
def execStaIdpy (d : Byte) (s : State) : Result := .next (s.store (s.ea (.idpy d)) s.wM s.acc)

/-- `STA (d)` (`$92`, R173, mode R145). -/
def execStaIdp (d : Byte) (s : State) : Result := .next (s.store (s.ea (.idp d)) s.wM s.acc)

/-- `STA (d,s),y` (`$93`, R173, mode R151). -/
def execStaIsry (d : Byte) (s : State) : Result := .next (s.store (s.ea (.isry d)) s.wM s.acc)

/-- `STA d,x` (`$95`, R173, mode R143). -/
def execStaDpx (d : Byte) (s : State) : Result := .next (s.store (s.ea (.dpx d)) s.wM s.acc)

/-- `STA [d],y` (`$97`, R173, mode R149). -/
def execStaIldpy (d : Byte) (s : State) : Result := .next (s.store (s.ea (.ildpy d)) s.wM s.acc)

/-- `STA a,y` (`$99`, R173, mode R134). -/
def execStaAbsy (a : Word) (s : State) : Result := .next (s.store (s.ea (.absy a)) s.wM s.acc)

/-- `STA a,x` (`$9D`, R173, mode R133). -/
def execStaAbsx (a : Word) (s : State) : Result := .next (s.store (s.ea (.absx a)) s.wM s.acc)

/-- `STA al,x` (`$9F`, R173, mode R136). -/
def execStaLongx (al : Addr) (s : State) : Result := .next (s.store (s.ea (.longx al)) s.wM s.acc)

/-- `STX d` (`$86`, R174, mode R142). -/
def execStxDp (d : Byte) (s : State) : Result := .next (s.store (s.ea (.dp d)) s.wX s.idxX)

/-- `STX a` (`$8E`, R174, mode R132). -/
def execStxAbs (a : Word) (s : State) : Result := .next (s.store (s.ea (.abs a)) s.wX s.idxX)

/-- `STX d,y` (`$96`, R174, mode R144). -/
def execStxDpy (d : Byte) (s : State) : Result := .next (s.store (s.ea (.dpy d)) s.wX s.idxX)

/-- `STY d` (`$84`, R175, mode R142). -/
def execStyDp (d : Byte) (s : State) : Result := .next (s.store (s.ea (.dp d)) s.wX s.idxY)

/-- `STY a` (`$8C`, R175, mode R132). -/
def execStyAbs (a : Word) (s : State) : Result := .next (s.store (s.ea (.abs a)) s.wX s.idxY)

/-- `STY d,x` (`$94`, R175, mode R143). -/
def execStyDpx (d : Byte) (s : State) : Result := .next (s.store (s.ea (.dpx d)) s.wX s.idxY)

/-- `STZ d` (`$64`, R176, mode R142). -/
def execStzDp (d : Byte) (s : State) : Result := .next (s.store (s.ea (.dp d)) s.wM 0)

/-- `STZ d,x` (`$74`, R176, mode R143). -/
def execStzDpx (d : Byte) (s : State) : Result := .next (s.store (s.ea (.dpx d)) s.wM 0)

/-- `STZ a` (`$9C`, R176, mode R132). -/
def execStzAbs (a : Word) (s : State) : Result := .next (s.store (s.ea (.abs a)) s.wM 0)

/-- `STZ a,x` (`$9E`, R176, mode R133). -/
def execStzAbsx (a : Word) (s : State) : Result := .next (s.store (s.ea (.absx a)) s.wM 0)

end Sys2Proof.Machine
end

