-- ==== Sys2Proof/Machine/Arithmetic.lean ====
section
/-! DEFINITION. The meanings of addition, subtraction, compares, increments and decrements. PC stands at the next instruction (`PCnext`, R10). -/

namespace Sys2Proof.Machine

/-- Write back the result `r` of a read-modify-write and set N and Z from it (R196). -/
def State.modifyMem (s : State) (md : MemMode) (r : Word) : State := (s.store (s.ea md) s.wM r).setNZ s.wM r

/-- `ADC (d,x)` (`$61`, R190, mode R146). -/
def execAdcIdpx (d : Byte) (s : State) : Result := .next (s.putArith (s.addResult (s.operand s.wM (.idpx d))))

/-- `ADC d,s` (`$63`, R190, mode R150). -/
def execAdcSr (d : Byte) (s : State) : Result := .next (s.putArith (s.addResult (s.operand s.wM (.sr d))))

/-- `ADC d` (`$65`, R190, mode R142). -/
def execAdcDp (d : Byte) (s : State) : Result := .next (s.putArith (s.addResult (s.operand s.wM (.dp d))))

/-- `ADC [d]` (`$67`, R190, mode R148). -/
def execAdcIldp (d : Byte) (s : State) : Result := .next (s.putArith (s.addResult (s.operand s.wM (.ildp d))))

/-- `ADC #m` (`$69`, R190, mode R131). -/
def execAdcImm (v : Word) (s : State) : Result := .next (s.putArith (s.addResult (s.wM.trunc v)))

/-- `ADC a` (`$6D`, R190, mode R132). -/
def execAdcAbs (a : Word) (s : State) : Result := .next (s.putArith (s.addResult (s.operand s.wM (.abs a))))

/-- `ADC al` (`$6F`, R190, mode R135). -/
def execAdcLong (al : Addr) (s : State) : Result :=
  .next (s.putArith (s.addResult (s.operand s.wM (.long al))))

/-- `ADC (d),y` (`$71`, R190, mode R147). -/
def execAdcIdpy (d : Byte) (s : State) : Result := .next (s.putArith (s.addResult (s.operand s.wM (.idpy d))))

/-- `ADC (d)` (`$72`, R190, mode R145). -/
def execAdcIdp (d : Byte) (s : State) : Result := .next (s.putArith (s.addResult (s.operand s.wM (.idp d))))

/-- `ADC (d,s),y` (`$73`, R190, mode R151). -/
def execAdcIsry (d : Byte) (s : State) : Result := .next (s.putArith (s.addResult (s.operand s.wM (.isry d))))

/-- `ADC d,x` (`$75`, R190, mode R143). -/
def execAdcDpx (d : Byte) (s : State) : Result := .next (s.putArith (s.addResult (s.operand s.wM (.dpx d))))

/-- `ADC [d],y` (`$77`, R190, mode R149). -/
def execAdcIldpy (d : Byte) (s : State) : Result :=
  .next (s.putArith (s.addResult (s.operand s.wM (.ildpy d))))

/-- `ADC a,y` (`$79`, R190, mode R134). -/
def execAdcAbsy (a : Word) (s : State) : Result := .next (s.putArith (s.addResult (s.operand s.wM (.absy a))))

/-- `ADC a,x` (`$7D`, R190, mode R133). -/
def execAdcAbsx (a : Word) (s : State) : Result := .next (s.putArith (s.addResult (s.operand s.wM (.absx a))))

/-- `ADC al,x` (`$7F`, R190, mode R136). -/
def execAdcLongx (al : Addr) (s : State) : Result :=
  .next (s.putArith (s.addResult (s.operand s.wM (.longx al))))

/-- `SBC (d,x)` (`$E1`, R191, mode R146). -/
def execSbcIdpx (d : Byte) (s : State) : Result := .next (s.putArith (s.subResult (s.operand s.wM (.idpx d))))

/-- `SBC d,s` (`$E3`, R191, mode R150). -/
def execSbcSr (d : Byte) (s : State) : Result := .next (s.putArith (s.subResult (s.operand s.wM (.sr d))))

/-- `SBC d` (`$E5`, R191, mode R142). -/
def execSbcDp (d : Byte) (s : State) : Result := .next (s.putArith (s.subResult (s.operand s.wM (.dp d))))

/-- `SBC [d]` (`$E7`, R191, mode R148). -/
def execSbcIldp (d : Byte) (s : State) : Result := .next (s.putArith (s.subResult (s.operand s.wM (.ildp d))))

/-- `SBC #m` (`$E9`, R191, mode R131). -/
def execSbcImm (v : Word) (s : State) : Result := .next (s.putArith (s.subResult (s.wM.trunc v)))

/-- `SBC a` (`$ED`, R191, mode R132). -/
def execSbcAbs (a : Word) (s : State) : Result := .next (s.putArith (s.subResult (s.operand s.wM (.abs a))))

/-- `SBC al` (`$EF`, R191, mode R135). -/
def execSbcLong (al : Addr) (s : State) : Result :=
  .next (s.putArith (s.subResult (s.operand s.wM (.long al))))

/-- `SBC (d),y` (`$F1`, R191, mode R147). -/
def execSbcIdpy (d : Byte) (s : State) : Result := .next (s.putArith (s.subResult (s.operand s.wM (.idpy d))))

/-- `SBC (d)` (`$F2`, R191, mode R145). -/
def execSbcIdp (d : Byte) (s : State) : Result := .next (s.putArith (s.subResult (s.operand s.wM (.idp d))))

/-- `SBC (d,s),y` (`$F3`, R191, mode R151). -/
def execSbcIsry (d : Byte) (s : State) : Result := .next (s.putArith (s.subResult (s.operand s.wM (.isry d))))

/-- `SBC d,x` (`$F5`, R191, mode R143). -/
def execSbcDpx (d : Byte) (s : State) : Result := .next (s.putArith (s.subResult (s.operand s.wM (.dpx d))))

/-- `SBC [d],y` (`$F7`, R191, mode R149). -/
def execSbcIldpy (d : Byte) (s : State) : Result :=
  .next (s.putArith (s.subResult (s.operand s.wM (.ildpy d))))

/-- `SBC a,y` (`$F9`, R191, mode R134). -/
def execSbcAbsy (a : Word) (s : State) : Result := .next (s.putArith (s.subResult (s.operand s.wM (.absy a))))

/-- `SBC a,x` (`$FD`, R191, mode R133). -/
def execSbcAbsx (a : Word) (s : State) : Result := .next (s.putArith (s.subResult (s.operand s.wM (.absx a))))

/-- `SBC al,x` (`$FF`, R191, mode R136). -/
def execSbcLongx (al : Addr) (s : State) : Result :=
  .next (s.putArith (s.subResult (s.operand s.wM (.longx al))))

/-- `CMP (d,x)` (`$C1`, R193, mode R146). -/
def execCmpIdpx (d : Byte) (s : State) : Result := .next (s.compare s.wM s.acc (s.operand s.wM (.idpx d)))

/-- `CMP d,s` (`$C3`, R193, mode R150). -/
def execCmpSr (d : Byte) (s : State) : Result := .next (s.compare s.wM s.acc (s.operand s.wM (.sr d)))

/-- `CMP d` (`$C5`, R193, mode R142). -/
def execCmpDp (d : Byte) (s : State) : Result := .next (s.compare s.wM s.acc (s.operand s.wM (.dp d)))

/-- `CMP [d]` (`$C7`, R193, mode R148). -/
def execCmpIldp (d : Byte) (s : State) : Result := .next (s.compare s.wM s.acc (s.operand s.wM (.ildp d)))

/-- `CMP #m` (`$C9`, R193, mode R131). -/
def execCmpImm (v : Word) (s : State) : Result := .next (s.compare s.wM s.acc (s.wM.trunc v))

/-- `CMP a` (`$CD`, R193, mode R132). -/
def execCmpAbs (a : Word) (s : State) : Result := .next (s.compare s.wM s.acc (s.operand s.wM (.abs a)))

/-- `CMP al` (`$CF`, R193, mode R135). -/
def execCmpLong (al : Addr) (s : State) : Result := .next (s.compare s.wM s.acc (s.operand s.wM (.long al)))

/-- `CMP (d),y` (`$D1`, R193, mode R147). -/
def execCmpIdpy (d : Byte) (s : State) : Result := .next (s.compare s.wM s.acc (s.operand s.wM (.idpy d)))

/-- `CMP (d)` (`$D2`, R193, mode R145). -/
def execCmpIdp (d : Byte) (s : State) : Result := .next (s.compare s.wM s.acc (s.operand s.wM (.idp d)))

/-- `CMP (d,s),y` (`$D3`, R193, mode R151). -/
def execCmpIsry (d : Byte) (s : State) : Result := .next (s.compare s.wM s.acc (s.operand s.wM (.isry d)))

/-- `CMP d,x` (`$D5`, R193, mode R143). -/
def execCmpDpx (d : Byte) (s : State) : Result := .next (s.compare s.wM s.acc (s.operand s.wM (.dpx d)))

/-- `CMP [d],y` (`$D7`, R193, mode R149). -/
def execCmpIldpy (d : Byte) (s : State) : Result := .next (s.compare s.wM s.acc (s.operand s.wM (.ildpy d)))

/-- `CMP a,y` (`$D9`, R193, mode R134). -/
def execCmpAbsy (a : Word) (s : State) : Result := .next (s.compare s.wM s.acc (s.operand s.wM (.absy a)))

/-- `CMP a,x` (`$DD`, R193, mode R133). -/
def execCmpAbsx (a : Word) (s : State) : Result := .next (s.compare s.wM s.acc (s.operand s.wM (.absx a)))

/-- `CMP al,x` (`$DF`, R193, mode R136). -/
def execCmpLongx (al : Addr) (s : State) : Result := .next (s.compare s.wM s.acc (s.operand s.wM (.longx al)))

/-- `CPX #x` (`$E0`, R194, mode R131). -/
def execCpxImm (v : Word) (s : State) : Result := .next (s.compare s.wX s.idxX (s.wX.trunc v))

/-- `CPX d` (`$E4`, R194, mode R142). -/
def execCpxDp (d : Byte) (s : State) : Result := .next (s.compare s.wX s.idxX (s.operand s.wX (.dp d)))

/-- `CPX a` (`$EC`, R194, mode R132). -/
def execCpxAbs (a : Word) (s : State) : Result := .next (s.compare s.wX s.idxX (s.operand s.wX (.abs a)))

/-- `CPY #x` (`$C0`, R195, mode R131). -/
def execCpyImm (v : Word) (s : State) : Result := .next (s.compare s.wX s.idxY (s.wX.trunc v))

/-- `CPY d` (`$C4`, R195, mode R142). -/
def execCpyDp (d : Byte) (s : State) : Result := .next (s.compare s.wX s.idxY (s.operand s.wX (.dp d)))

/-- `CPY a` (`$CC`, R195, mode R132). -/
def execCpyAbs (a : Word) (s : State) : Result := .next (s.compare s.wX s.idxY (s.operand s.wX (.abs a)))

/-- `INC A` (`$1A`, R196, mode R159). -/
def execIncAcc (s : State) : Result := .next (s.loadAcc (s.wM.trunc (s.acc + 1)))

/-- `INC d` (`$E6`, R196, mode R142). -/
def execIncDp (d : Byte) (s : State) : Result :=
  .next (s.modifyMem (.dp d) (s.wM.trunc (s.operand s.wM (.dp d) + 1)))

/-- `INC a` (`$EE`, R196, mode R132). -/
def execIncAbs (a : Word) (s : State) : Result :=
  .next (s.modifyMem (.abs a) (s.wM.trunc (s.operand s.wM (.abs a) + 1)))

/-- `INC d,x` (`$F6`, R196, mode R143). -/
def execIncDpx (d : Byte) (s : State) : Result :=
  .next (s.modifyMem (.dpx d) (s.wM.trunc (s.operand s.wM (.dpx d) + 1)))

/-- `INC a,x` (`$FE`, R196, mode R133). -/
def execIncAbsx (a : Word) (s : State) : Result :=
  .next (s.modifyMem (.absx a) (s.wM.trunc (s.operand s.wM (.absx a) + 1)))

/-- `DEC A` (`$3A`, R197, mode R159). -/
def execDecAcc (s : State) : Result := .next (s.loadAcc (s.wM.trunc (s.acc - 1)))

/-- `DEC d` (`$C6`, R197, mode R142). -/
def execDecDp (d : Byte) (s : State) : Result :=
  .next (s.modifyMem (.dp d) (s.wM.trunc (s.operand s.wM (.dp d) - 1)))

/-- `DEC a` (`$CE`, R197, mode R132). -/
def execDecAbs (a : Word) (s : State) : Result :=
  .next (s.modifyMem (.abs a) (s.wM.trunc (s.operand s.wM (.abs a) - 1)))

/-- `DEC d,x` (`$D6`, R197, mode R143). -/
def execDecDpx (d : Byte) (s : State) : Result :=
  .next (s.modifyMem (.dpx d) (s.wM.trunc (s.operand s.wM (.dpx d) - 1)))

/-- `DEC a,x` (`$DE`, R197, mode R133). -/
def execDecAbsx (a : Word) (s : State) : Result :=
  .next (s.modifyMem (.absx a) (s.wM.trunc (s.operand s.wM (.absx a) - 1)))

/-- `INX` (`$E8`, R198, mode R158). -/
def execInx (s : State) : Result := .next (s.loadX (s.wX.trunc (s.idxX + 1)))

/-- `INY` (`$C8`, R199, mode R158). -/
def execIny (s : State) : Result := .next (s.loadY (s.wX.trunc (s.idxY + 1)))

/-- `DEX` (`$CA`, R200, mode R158). -/
def execDex (s : State) : Result := .next (s.loadX (s.wX.trunc (s.idxX - 1)))

/-- `DEY` (`$88`, R201, mode R158). -/
def execDey (s : State) : Result := .next (s.loadY (s.wX.trunc (s.idxY - 1)))

end Sys2Proof.Machine
end

