-- ==== Sys2Proof/Machine/Bitwise.lean ====
section
/-! DEFINITION. The meanings of the bitwise instructions. PC stands at the next instruction (`PCnext`, R10). -/

namespace Sys2Proof.Machine

/-- `P.Z <- (a & b) = 0` (R223). -/
def State.testZero (s : State) (b : Word) : State := s.setFlag .z (isZero s.wM (s.acc &&& b))

/-- BIT with a memory operand: Z from the masked value, N and V from the operand's two top bits (R223). -/
def State.testBits (s : State) (b : Word) : State :=
  ((s.testZero b).setFlag .n (s.wM.msb b)).setFlag .v (b.getLsbD (s.wM.bits - 2))

/-- TSB and TRB: Z from the operand before the update, then the new value stored (R224, R225). -/
def State.testAndWrite (s : State) (md : MemMode) (r : Word) : State :=
  (s.testZero (s.operand s.wM md)).store (s.ea md) s.wM r

/-- `AND (d,x)` (`$21`, R220, mode R146). -/
def execAndIdpx (d : Byte) (s : State) : Result := .next (s.loadAcc (s.acc &&& s.operand s.wM (.idpx d)))

/-- `AND d,s` (`$23`, R220, mode R150). -/
def execAndSr (d : Byte) (s : State) : Result := .next (s.loadAcc (s.acc &&& s.operand s.wM (.sr d)))

/-- `AND d` (`$25`, R220, mode R142). -/
def execAndDp (d : Byte) (s : State) : Result := .next (s.loadAcc (s.acc &&& s.operand s.wM (.dp d)))

/-- `AND [d]` (`$27`, R220, mode R148). -/
def execAndIldp (d : Byte) (s : State) : Result := .next (s.loadAcc (s.acc &&& s.operand s.wM (.ildp d)))

/-- `AND #m` (`$29`, R220, mode R131). -/
def execAndImm (v : Word) (s : State) : Result := .next (s.loadAcc (s.acc &&& s.wM.trunc v))

/-- `AND a` (`$2D`, R220, mode R132). -/
def execAndAbs (a : Word) (s : State) : Result := .next (s.loadAcc (s.acc &&& s.operand s.wM (.abs a)))

/-- `AND al` (`$2F`, R220, mode R135). -/
def execAndLong (al : Addr) (s : State) : Result := .next (s.loadAcc (s.acc &&& s.operand s.wM (.long al)))

/-- `AND (d),y` (`$31`, R220, mode R147). -/
def execAndIdpy (d : Byte) (s : State) : Result := .next (s.loadAcc (s.acc &&& s.operand s.wM (.idpy d)))

/-- `AND (d)` (`$32`, R220, mode R145). -/
def execAndIdp (d : Byte) (s : State) : Result := .next (s.loadAcc (s.acc &&& s.operand s.wM (.idp d)))

/-- `AND (d,s),y` (`$33`, R220, mode R151). -/
def execAndIsry (d : Byte) (s : State) : Result := .next (s.loadAcc (s.acc &&& s.operand s.wM (.isry d)))

/-- `AND d,x` (`$35`, R220, mode R143). -/
def execAndDpx (d : Byte) (s : State) : Result := .next (s.loadAcc (s.acc &&& s.operand s.wM (.dpx d)))

/-- `AND [d],y` (`$37`, R220, mode R149). -/
def execAndIldpy (d : Byte) (s : State) : Result := .next (s.loadAcc (s.acc &&& s.operand s.wM (.ildpy d)))

/-- `AND a,y` (`$39`, R220, mode R134). -/
def execAndAbsy (a : Word) (s : State) : Result := .next (s.loadAcc (s.acc &&& s.operand s.wM (.absy a)))

/-- `AND a,x` (`$3D`, R220, mode R133). -/
def execAndAbsx (a : Word) (s : State) : Result := .next (s.loadAcc (s.acc &&& s.operand s.wM (.absx a)))

/-- `AND al,x` (`$3F`, R220, mode R136). -/
def execAndLongx (al : Addr) (s : State) : Result := .next (s.loadAcc (s.acc &&& s.operand s.wM (.longx al)))

/-- `ORA (d,x)` (`$01`, R221, mode R146). -/
def execOraIdpx (d : Byte) (s : State) : Result := .next (s.loadAcc (s.acc ||| s.operand s.wM (.idpx d)))

/-- `ORA d,s` (`$03`, R221, mode R150). -/
def execOraSr (d : Byte) (s : State) : Result := .next (s.loadAcc (s.acc ||| s.operand s.wM (.sr d)))

/-- `ORA d` (`$05`, R221, mode R142). -/
def execOraDp (d : Byte) (s : State) : Result := .next (s.loadAcc (s.acc ||| s.operand s.wM (.dp d)))

/-- `ORA [d]` (`$07`, R221, mode R148). -/
def execOraIldp (d : Byte) (s : State) : Result := .next (s.loadAcc (s.acc ||| s.operand s.wM (.ildp d)))

/-- `ORA #m` (`$09`, R221, mode R131). -/
def execOraImm (v : Word) (s : State) : Result := .next (s.loadAcc (s.acc ||| s.wM.trunc v))

/-- `ORA a` (`$0D`, R221, mode R132). -/
def execOraAbs (a : Word) (s : State) : Result := .next (s.loadAcc (s.acc ||| s.operand s.wM (.abs a)))

/-- `ORA al` (`$0F`, R221, mode R135). -/
def execOraLong (al : Addr) (s : State) : Result := .next (s.loadAcc (s.acc ||| s.operand s.wM (.long al)))

/-- `ORA (d),y` (`$11`, R221, mode R147). -/
def execOraIdpy (d : Byte) (s : State) : Result := .next (s.loadAcc (s.acc ||| s.operand s.wM (.idpy d)))

/-- `ORA (d)` (`$12`, R221, mode R145). -/
def execOraIdp (d : Byte) (s : State) : Result := .next (s.loadAcc (s.acc ||| s.operand s.wM (.idp d)))

/-- `ORA (d,s),y` (`$13`, R221, mode R151). -/
def execOraIsry (d : Byte) (s : State) : Result := .next (s.loadAcc (s.acc ||| s.operand s.wM (.isry d)))

/-- `ORA d,x` (`$15`, R221, mode R143). -/
def execOraDpx (d : Byte) (s : State) : Result := .next (s.loadAcc (s.acc ||| s.operand s.wM (.dpx d)))

/-- `ORA [d],y` (`$17`, R221, mode R149). -/
def execOraIldpy (d : Byte) (s : State) : Result := .next (s.loadAcc (s.acc ||| s.operand s.wM (.ildpy d)))

/-- `ORA a,y` (`$19`, R221, mode R134). -/
def execOraAbsy (a : Word) (s : State) : Result := .next (s.loadAcc (s.acc ||| s.operand s.wM (.absy a)))

/-- `ORA a,x` (`$1D`, R221, mode R133). -/
def execOraAbsx (a : Word) (s : State) : Result := .next (s.loadAcc (s.acc ||| s.operand s.wM (.absx a)))

/-- `ORA al,x` (`$1F`, R221, mode R136). -/
def execOraLongx (al : Addr) (s : State) : Result := .next (s.loadAcc (s.acc ||| s.operand s.wM (.longx al)))

/-- `EOR (d,x)` (`$41`, R222, mode R146). -/
def execEorIdpx (d : Byte) (s : State) : Result := .next (s.loadAcc (s.acc ^^^ s.operand s.wM (.idpx d)))

/-- `EOR d,s` (`$43`, R222, mode R150). -/
def execEorSr (d : Byte) (s : State) : Result := .next (s.loadAcc (s.acc ^^^ s.operand s.wM (.sr d)))

/-- `EOR d` (`$45`, R222, mode R142). -/
def execEorDp (d : Byte) (s : State) : Result := .next (s.loadAcc (s.acc ^^^ s.operand s.wM (.dp d)))

/-- `EOR [d]` (`$47`, R222, mode R148). -/
def execEorIldp (d : Byte) (s : State) : Result := .next (s.loadAcc (s.acc ^^^ s.operand s.wM (.ildp d)))

/-- `EOR #m` (`$49`, R222, mode R131). -/
def execEorImm (v : Word) (s : State) : Result := .next (s.loadAcc (s.acc ^^^ s.wM.trunc v))

/-- `EOR a` (`$4D`, R222, mode R132). -/
def execEorAbs (a : Word) (s : State) : Result := .next (s.loadAcc (s.acc ^^^ s.operand s.wM (.abs a)))

/-- `EOR al` (`$4F`, R222, mode R135). -/
def execEorLong (al : Addr) (s : State) : Result := .next (s.loadAcc (s.acc ^^^ s.operand s.wM (.long al)))

/-- `EOR (d),y` (`$51`, R222, mode R147). -/
def execEorIdpy (d : Byte) (s : State) : Result := .next (s.loadAcc (s.acc ^^^ s.operand s.wM (.idpy d)))

/-- `EOR (d)` (`$52`, R222, mode R145). -/
def execEorIdp (d : Byte) (s : State) : Result := .next (s.loadAcc (s.acc ^^^ s.operand s.wM (.idp d)))

/-- `EOR (d,s),y` (`$53`, R222, mode R151). -/
def execEorIsry (d : Byte) (s : State) : Result := .next (s.loadAcc (s.acc ^^^ s.operand s.wM (.isry d)))

/-- `EOR d,x` (`$55`, R222, mode R143). -/
def execEorDpx (d : Byte) (s : State) : Result := .next (s.loadAcc (s.acc ^^^ s.operand s.wM (.dpx d)))

/-- `EOR [d],y` (`$57`, R222, mode R149). -/
def execEorIldpy (d : Byte) (s : State) : Result := .next (s.loadAcc (s.acc ^^^ s.operand s.wM (.ildpy d)))

/-- `EOR a,y` (`$59`, R222, mode R134). -/
def execEorAbsy (a : Word) (s : State) : Result := .next (s.loadAcc (s.acc ^^^ s.operand s.wM (.absy a)))

/-- `EOR a,x` (`$5D`, R222, mode R133). -/
def execEorAbsx (a : Word) (s : State) : Result := .next (s.loadAcc (s.acc ^^^ s.operand s.wM (.absx a)))

/-- `EOR al,x` (`$5F`, R222, mode R136). -/
def execEorLongx (al : Addr) (s : State) : Result := .next (s.loadAcc (s.acc ^^^ s.operand s.wM (.longx al)))

/-- `BIT d` (`$24`, R223, mode R142). -/
def execBitDp (d : Byte) (s : State) : Result := .next (s.testBits (s.operand s.wM (.dp d)))

/-- `BIT a` (`$2C`, R223, mode R132). -/
def execBitAbs (a : Word) (s : State) : Result := .next (s.testBits (s.operand s.wM (.abs a)))

/-- `BIT d,x` (`$34`, R223, mode R143). -/
def execBitDpx (d : Byte) (s : State) : Result := .next (s.testBits (s.operand s.wM (.dpx d)))

/-- `BIT a,x` (`$3C`, R223, mode R133). -/
def execBitAbsx (a : Word) (s : State) : Result := .next (s.testBits (s.operand s.wM (.absx a)))

/-- `BIT #m` (`$89`, R223, mode R131). -/
def execBitImm (v : Word) (s : State) : Result := .next (s.testZero (s.wM.trunc v))

/-- `TSB d` (`$04`, R224, mode R142). -/
def execTsbDp (d : Byte) (s : State) : Result :=
  .next (s.testAndWrite (.dp d) (s.operand s.wM (.dp d) ||| s.acc))

/-- `TSB a` (`$0C`, R224, mode R132). -/
def execTsbAbs (a : Word) (s : State) : Result :=
  .next (s.testAndWrite (.abs a) (s.operand s.wM (.abs a) ||| s.acc))

/-- `TRB d` (`$14`, R225, mode R142). -/
def execTrbDp (d : Byte) (s : State) : Result :=
  .next (s.testAndWrite (.dp d) (s.operand s.wM (.dp d) &&& ~~~s.acc))

/-- `TRB a` (`$1C`, R225, mode R132). -/
def execTrbAbs (a : Word) (s : State) : Result :=
  .next (s.testAndWrite (.abs a) (s.operand s.wM (.abs a) &&& ~~~s.acc))

end Sys2Proof.Machine
end

