-- ==== Sys2Proof/Machine/BlockMove.lean ====
section
/-! DEFINITION. The meanings of the block moves. PC stands at the next instruction (`PCnext`, R10). -/

namespace Sys2Proof.Machine

/-- One byte of a block move in direction `dir`; until the count is used up PC goes back to the instruction's own
address, three bytes before PC (R390, R391). -/
def State.moveByte (s : State) (dir : Word) (dst src : Byte) : State :=
  { s.writeByte (joinAddr dst s.idxY) (s.readByte (joinAddr src s.idxX)) with
    dbr := dst
    x := s.wX.trunc (s.idxX + dir)
    y := s.wX.trunc (s.idxY + dir)
    c := s.c - 1
    pc := if s.c - 1 = 0xFFFF then s.pc else s.pc - 3 }

/-- `MVN xyc` (`$54`, R390, mode R157). -/
def execMvn (dst src : Byte) (s : State) : Result := .next (s.moveByte 1 dst src)

/-- `MVP xyc` (`$44`, R391, mode R157). -/
def execMvp (dst src : Byte) (s : State) : Result := .next (s.moveByte (-1) dst src)

end Sys2Proof.Machine
end

