-- ==== Sys2Proof/Machine/Branch.lean ====
section
/-! DEFINITION. The meanings of the branches and jumps. PC stands at the next instruction (`PCnext`, R10). -/

namespace Sys2Proof.Machine

/-- `PC <- target`; PBR stays (R262). -/
def State.jump (s : State) (target : Word) : State := { s with pc := target }

/-- `PC <- target[15:0]; PBR <- target[23:16]` (R266). -/
def State.jumpLong (s : State) (target : Addr) : State :=
  { s with pc := offsetOf target, pbr := bankOf target }

/-- The common rule of the short branches (R250). -/
def State.branchIf (s : State) (cond : Bool) (o : Byte) : State :=
  s.jump (if cond then s.branchTarget o else s.pc)

/-- `BCC r` (`$90`, R251, mode R155). -/
def execBcc (o : Byte) (s : State) : Result := .next (s.branchIf (!s.flag .c) o)

/-- `BCS r` (`$B0`, R252, mode R155). -/
def execBcs (o : Byte) (s : State) : Result := .next (s.branchIf (s.flag .c) o)

/-- `BEQ r` (`$F0`, R253, mode R155). -/
def execBeq (o : Byte) (s : State) : Result := .next (s.branchIf (s.flag .z) o)

/-- `BNE r` (`$D0`, R254, mode R155). -/
def execBne (o : Byte) (s : State) : Result := .next (s.branchIf (!s.flag .z) o)

/-- `BMI r` (`$30`, R255, mode R155). -/
def execBmi (o : Byte) (s : State) : Result := .next (s.branchIf (s.flag .n) o)

/-- `BPL r` (`$10`, R256, mode R155). -/
def execBpl (o : Byte) (s : State) : Result := .next (s.branchIf (!s.flag .n) o)

/-- `BVC r` (`$50`, R257, mode R155). -/
def execBvc (o : Byte) (s : State) : Result := .next (s.branchIf (!s.flag .v) o)

/-- `BVS r` (`$70`, R258, mode R155). -/
def execBvs (o : Byte) (s : State) : Result := .next (s.branchIf (s.flag .v) o)

/-- `BRA r` (`$80`, R259, mode R155). -/
def execBra (o : Byte) (s : State) : Result := .next (s.branchIf true o)

/-- `BRL rl` (`$82`, R260, mode R156). -/
def execBrl (o : Word) (s : State) : Result := .next (s.jump (s.longTarget o))

/-- `JMP a` (`$4C`, R262, mode R132). -/
def execJmpAbs (a : Word) (s : State) : Result := .next (s.jump a)

/-- `JMP (a)` (`$6C`, R263, mode R152). -/
def execJmpInd (a : Word) (s : State) : Result := .next (s.jump (s.read0 a))

/-- `JMP (a,x)` (`$7C`, R264, mode R153). -/
def execJmpIndx (a : Word) (s : State) : Result := .next (s.jump (s.indexedTarget a))

/-- `JML al` (`$5C`, R266, mode R135). -/
def execJmlLong (al : Addr) (s : State) : Result := .next (s.jumpLong al)

/-- `JML [a]` (`$DC`, R267, mode R154). -/
def execJmlIndl (a : Word) (s : State) : Result := .next (s.jumpLong (s.readPtr24 a))

end Sys2Proof.Machine
end

