-- ==== Sys2Proof/Machine/Shift.lean ====
section
/-! DEFINITION. The meanings of the shift and rotate instructions. PC stands at the next instruction (`PCnext`, R10). -/

namespace Sys2Proof.Machine

/-- A shift or rotate of the accumulator (R240 to R243). -/
def State.shiftAcc (s : State) (op : ShiftOp) : State :=
  let r := shiftResult op s.wM (s.flag .c) s.acc
  (s.loadAcc r.1).setFlag .c r.2

/-- A shift or rotate of a memory operand (R240 to R243). -/
def State.shiftMem (s : State) (op : ShiftOp) (md : MemMode) : State :=
  let r := shiftResult op s.wM (s.flag .c) (s.operand s.wM md)
  (s.modifyMem md r.1).setFlag .c r.2

/-- `ASL d` (`$06`, R240, mode R142). -/
def execAslDp (d : Byte) (s : State) : Result := .next (s.shiftMem .asl (.dp d))

/-- `ASL A` (`$0A`, R240, mode R159). -/
def execAslAcc (s : State) : Result := .next (s.shiftAcc .asl)

/-- `ASL a` (`$0E`, R240, mode R132). -/
def execAslAbs (a : Word) (s : State) : Result := .next (s.shiftMem .asl (.abs a))

/-- `ASL d,x` (`$16`, R240, mode R143). -/
def execAslDpx (d : Byte) (s : State) : Result := .next (s.shiftMem .asl (.dpx d))

/-- `ASL a,x` (`$1E`, R240, mode R133). -/
def execAslAbsx (a : Word) (s : State) : Result := .next (s.shiftMem .asl (.absx a))

/-- `LSR d` (`$46`, R241, mode R142). -/
def execLsrDp (d : Byte) (s : State) : Result := .next (s.shiftMem .lsr (.dp d))

/-- `LSR A` (`$4A`, R241, mode R159). -/
def execLsrAcc (s : State) : Result := .next (s.shiftAcc .lsr)

/-- `LSR a` (`$4E`, R241, mode R132). -/
def execLsrAbs (a : Word) (s : State) : Result := .next (s.shiftMem .lsr (.abs a))

/-- `LSR d,x` (`$56`, R241, mode R143). -/
def execLsrDpx (d : Byte) (s : State) : Result := .next (s.shiftMem .lsr (.dpx d))

/-- `LSR a,x` (`$5E`, R241, mode R133). -/
def execLsrAbsx (a : Word) (s : State) : Result := .next (s.shiftMem .lsr (.absx a))

/-- `ROL d` (`$26`, R242, mode R142). -/
def execRolDp (d : Byte) (s : State) : Result := .next (s.shiftMem .rol (.dp d))

/-- `ROL A` (`$2A`, R242, mode R159). -/
def execRolAcc (s : State) : Result := .next (s.shiftAcc .rol)

/-- `ROL a` (`$2E`, R242, mode R132). -/
def execRolAbs (a : Word) (s : State) : Result := .next (s.shiftMem .rol (.abs a))

/-- `ROL d,x` (`$36`, R242, mode R143). -/
def execRolDpx (d : Byte) (s : State) : Result := .next (s.shiftMem .rol (.dpx d))

/-- `ROL a,x` (`$3E`, R242, mode R133). -/
def execRolAbsx (a : Word) (s : State) : Result := .next (s.shiftMem .rol (.absx a))

/-- `ROR d` (`$66`, R243, mode R142). -/
def execRorDp (d : Byte) (s : State) : Result := .next (s.shiftMem .ror (.dp d))

/-- `ROR A` (`$6A`, R243, mode R159). -/
def execRorAcc (s : State) : Result := .next (s.shiftAcc .ror)

/-- `ROR a` (`$6E`, R243, mode R132). -/
def execRorAbs (a : Word) (s : State) : Result := .next (s.shiftMem .ror (.abs a))

/-- `ROR d,x` (`$76`, R243, mode R143). -/
def execRorDpx (d : Byte) (s : State) : Result := .next (s.shiftMem .ror (.dpx d))

/-- `ROR a,x` (`$7E`, R243, mode R133). -/
def execRorAbsx (a : Word) (s : State) : Result := .next (s.shiftMem .ror (.absx a))

end Sys2Proof.Machine
end

