-- ==== Sys2Proof/Machine/Stack.lean ====
section
/-! DEFINITION. The meanings of the subroutine and stack instructions. PC stands at the next instruction (`PCnext`, R10). -/

namespace Sys2Proof.Machine

/-- Push the address of the call's own last byte (R285). -/
def State.pushReturn (s : State) (k : StackRule) : State := s.push16 k (s.pc - 1)

/-- `t <- Pull16(); PC <- t + 1` (R288). -/
def State.returnNear (s : State) : State :=
  (s.poppedW .page .word).jump (s.pull16 .page + 1)

/-- `t <- Pull16(); PC <- t + 1; PBR <- Pull8()` (R289). -/
def State.returnLong (s : State) : State :=
  let s1 := s.poppedW .wide .word
  { s1.popped .wide with pc := s.pull16 .wide + 1, pbr := s1.pull8 .wide }

/-- `v <- Pull8(); DBR <- v; SetNZ(v, 1)` (R309). -/
def State.pullDbr (s : State) : State :=
  let v := s.pull8 .wide
  { (s.popped .wide).setNZ .byte (zeroExtend8 v) with dbr := v }

/-- `v <- Pull16(); D <- v; SetNZ(v, 2)` (R310). -/
def State.pullD (s : State) : State :=
  let v := s.pull16 .wide
  { (s.poppedW .wide .word).setNZ .word v with d := v }

/-- `JSR a` (`$20`, R285, mode R132). -/
def execJsrAbs (a : Word) (s : State) : Result := .next ((s.pushReturn .page).jump a)

/-- `JSR (a,x)` (`$FC`, R286, mode R153). -/
def execJsrIndx (a : Word) (s : State) : Result :=
  .next ((s.pushReturn .wide).jump ((s.pushReturn .wide).indexedTarget a))

/-- `JSL al` (`$22`, R287, mode R135). -/
def execJsl (al : Addr) (s : State) : Result := .next (((s.push8 .wide s.pbr).pushReturn .wide).jumpLong al)

/-- `RTS` (`$60`, R288, mode R158). -/
def execRts (s : State) : Result := .next (s.returnNear)

/-- `RTL` (`$6B`, R289, mode R158). -/
def execRtl (s : State) : Result := .next (s.returnLong)

/-- `RTI` (`$40`, R292, mode R158). -/
def execRti (s : State) : Result := .next (s.returnFromInterrupt)

/-- `PEA #16` (`$F4`, R295, mode R161). -/
def execPea (v : Word) (s : State) : Result := .next (s.push16 .wide v)

/-- `PEI (d)` (`$D4`, R296, mode R145). -/
def execPei (d : Byte) (s : State) : Result := .next (s.push16 .wide (s.read0 (s.directLong d)))

/-- `PER rl` (`$62`, R297, mode R156). -/
def execPer (o : Word) (s : State) : Result := .next (s.push16 .wide (s.longTarget o))

/-- `PHA` (`$48`, R298, mode R158). -/
def execPha (s : State) : Result := .next (s.pushW .page s.wM s.acc)

/-- `PHP` (`$08`, R299, mode R158). -/
def execPhp (s : State) : Result := .next (s.push8 .page s.p)

/-- `PHX` (`$DA`, R300, mode R158). -/
def execPhx (s : State) : Result := .next (s.pushW .page s.wX s.idxX)

/-- `PHY` (`$5A`, R301, mode R158). -/
def execPhy (s : State) : Result := .next (s.pushW .page s.wX s.idxY)

/-- `PHB` (`$8B`, R302, mode R158). -/
def execPhb (s : State) : Result := .next (s.push8 .page s.dbr)

/-- `PHD` (`$0B`, R303, mode R158). -/
def execPhd (s : State) : Result := .next (s.push16 .wide s.d)

/-- `PHK` (`$4B`, R304, mode R158). -/
def execPhk (s : State) : Result := .next (s.push8 .page s.pbr)

/-- `PLA` (`$68`, R306, mode R158). -/
def execPla (s : State) : Result := .next ((s.poppedW .page s.wM).loadAcc (s.pullW .page s.wM))

/-- `PLP` (`$28`, R305, mode R158). -/
def execPlp (s : State) : Result := .next ((s.popped .page).pulledP (s.pull8 .page))

/-- `PLX` (`$FA`, R307, mode R158). -/
def execPlx (s : State) : Result := .next ((s.poppedW .page s.wX).loadX (s.pullW .page s.wX))

/-- `PLY` (`$7A`, R308, mode R158). -/
def execPly (s : State) : Result := .next ((s.poppedW .page s.wX).loadY (s.pullW .page s.wX))

/-- `PLB` (`$AB`, R309, mode R158). -/
def execPlb (s : State) : Result := .next (s.pullDbr)

/-- `PLD` (`$2B`, R310, mode R158). -/
def execPld (s : State) : Result := .next (s.pullD)

end Sys2Proof.Machine
end

