-- ==== Sys2Proof/Machine/System.lean ====
section
/-! DEFINITION. The meanings of the system and control instructions. PC stands at the next instruction (`PCnext`, R10). -/

namespace Sys2Proof.Machine

/-- `run <- r` (R366, R367). -/
def State.withRun (s : State) (r : RunState) : State := { s with run := r }

/-- REP: the mask's bits of P cleared, m and x kept 1 while `E = 1` (R380). -/
def State.resetBits (s : State) (k : Byte) : State :=
  { s with p := if s.e then s.p &&& ~~~k ||| 0x30 else s.p &&& ~~~k }

/-- `BRK sig` (`$00`, R360, mode R160). -/
def execBrk (_b : Byte) (s : State) : Result := .next (s.enter .brk)

/-- `COP sig` (`$02`, R361, mode R160). -/
def execCop (_b : Byte) (s : State) : Result := .next (s.enter .cop)

/-- `WDM sig` (`$42`, R365, mode R160). -/
def execWdm (_b : Byte) (s : State) : Result := .next s

/-- `WAI` (`$CB`, R366, mode R158). -/
def execWai (s : State) : Result := .next (s.withRun .waiting)

/-- `STP` (`$DB`, R367, mode R158). -/
def execStp (s : State) : Result := .next (s.withRun .stopped)

/-- `NOP` (`$EA`, R368, mode R158). -/
def execNop (s : State) : Result := .next s

/-- `SEC` (`$38`, R369, mode R158). -/
def execSec (s : State) : Result := .next (s.setFlag .c true)

/-- `CLC` (`$18`, R370, mode R158). -/
def execClc (s : State) : Result := .next (s.setFlag .c false)

/-- `SED` (`$F8`, R371, mode R158). -/
def execSed (s : State) : Result := .next (s.setFlag .d true)

/-- `CLD` (`$D8`, R372, mode R158). -/
def execCld (s : State) : Result := .next (s.setFlag .d false)

/-- `SEI` (`$78`, R373, mode R158). -/
def execSei (s : State) : Result := .next (s.setFlag .i true)

/-- `CLI` (`$58`, R374, mode R158). -/
def execCli (s : State) : Result := .next (s.setFlag .i false)

/-- `CLV` (`$B8`, R375, mode R158). -/
def execClv (s : State) : Result := .next (s.setFlag .v false)

/-- `REP #8` (`$C2`, R380, mode R131). -/
def execRep (k : Byte) (s : State) : Result := .next (s.resetBits k)

/-- `SEP #8` (`$E2`, R381, mode R131). -/
def execSep (k : Byte) (s : State) : Result := .next (s.writeP (s.p ||| k))

end Sys2Proof.Machine
end

