-- ==== Sys2Proof/Machine/Transfer.lean ====
section
/-! DEFINITION. The meanings of the register transfers and exchanges. PC stands at the next instruction (`PCnext`, R10). -/

namespace Sys2Proof.Machine

/-- `D <- v; SetNZ(v, 2)` (R339). -/
def State.loadD (s : State) (v : Word) : State := { s.setNZ .word v with d := v }

/-- `C <- v; SetNZ(v, 2)`, all 16 bits whatever `P.M` (R340, R342). -/
def State.loadC (s : State) (v : Word) : State := { s.setNZ .word v with c := v }

/-- XBA: A and B exchanged, N and Z from the new A (R343). -/
def State.swapAccBytes (s : State) : State :=
  { s.setNZ .byte (zeroExtend8 (highByte s.c)) with c := joinBytes (lowByte s.c) (highByte s.c) }

/-- What becoming (or staying) an emulation-mode machine forces: m, x, XH, YH and SH (R345, R44). -/
def State.forceEmulation (s : State) : State :=
  { s with
    p := s.p ||| 0x30
    x := zeroExtend8 (lowByte s.x)
    y := zeroExtend8 (lowByte s.y)
    sp := joinBytes 0x01 (lowByte s.sp) }

/-- XCE (R345). -/
def State.exchangeCE (s : State) : State :=
  let s1 := { s.setFlag .c s.e with e := s.flag .c }
  if s1.e then s1.forceEmulation else s1

/-- `TAX` (`$AA`, R331, mode R158). -/
def execTax (s : State) : Result := .next (s.loadX (s.wX.trunc s.c))

/-- `TAY` (`$A8`, R332, mode R158). -/
def execTay (s : State) : Result := .next (s.loadY (s.wX.trunc s.c))

/-- `TXA` (`$8A`, R333, mode R158). -/
def execTxa (s : State) : Result := .next (s.loadAcc (s.wM.trunc s.x))

/-- `TYA` (`$98`, R334, mode R158). -/
def execTya (s : State) : Result := .next (s.loadAcc (s.wM.trunc s.y))

/-- `TSX` (`$BA`, R335, mode R158). -/
def execTsx (s : State) : Result := .next (s.loadX (s.wX.trunc s.sp))

/-- `TXS` (`$9A`, R336, mode R158). -/
def execTxs (s : State) : Result := .next (s.setSp s.x)

/-- `TXY` (`$9B`, R337, mode R158). -/
def execTxy (s : State) : Result := .next (s.loadY s.idxX)

/-- `TYX` (`$BB`, R338, mode R158). -/
def execTyx (s : State) : Result := .next (s.loadX s.idxY)

/-- `TCD` (`$5B`, R339, mode R158). -/
def execTcd (s : State) : Result := .next (s.loadD s.c)

/-- `TDC` (`$7B`, R340, mode R158). -/
def execTdc (s : State) : Result := .next (s.loadC s.d)

/-- `TCS` (`$1B`, R341, mode R158). -/
def execTcs (s : State) : Result := .next (s.setSp s.c)

/-- `TSC` (`$3B`, R342, mode R158). -/
def execTsc (s : State) : Result := .next (s.loadC s.sp)

/-- `XBA` (`$EB`, R343, mode R158). -/
def execXba (s : State) : Result := .next (s.swapAccBytes)

/-- `XCE` (`$FB`, R345, mode R158). -/
def execXce (s : State) : Result := .next (s.exchangeCE)

end Sys2Proof.Machine
end

