-- ==== Sys2Proof/Machine/Dispatch.lean ====
section
/-! DEFINITION. One arm per constructor of Instr, each one call of its meaning. -/

namespace Sys2Proof.Machine

-- The state is the one after the fetch: its PC is `PCnext` (R10).
def exec (i : Instr) (s : State) : Host.Outcome State Fault Refusal :=
  match i with
  | .brk b => Sys2Proof.Machine.execBrk b s
  | .oraIdpx d => Sys2Proof.Machine.execOraIdpx d s
  | .cop b => Sys2Proof.Machine.execCop b s
  | .oraSr d => Sys2Proof.Machine.execOraSr d s
  | .tsbDp d => Sys2Proof.Machine.execTsbDp d s
  | .oraDp d => Sys2Proof.Machine.execOraDp d s
  | .aslDp d => Sys2Proof.Machine.execAslDp d s
  | .oraIldp d => Sys2Proof.Machine.execOraIldp d s
  | .php => Sys2Proof.Machine.execPhp s
  | .oraImm v => Sys2Proof.Machine.execOraImm v s
  | .aslAcc => Sys2Proof.Machine.execAslAcc s
  | .phd => Sys2Proof.Machine.execPhd s
  | .tsbAbs a => Sys2Proof.Machine.execTsbAbs a s
  | .oraAbs a => Sys2Proof.Machine.execOraAbs a s
  | .aslAbs a => Sys2Proof.Machine.execAslAbs a s
  | .oraLong al => Sys2Proof.Machine.execOraLong al s
  | .bpl o => Sys2Proof.Machine.execBpl o s
  | .oraIdpy d => Sys2Proof.Machine.execOraIdpy d s
  | .oraIdp d => Sys2Proof.Machine.execOraIdp d s
  | .oraIsry d => Sys2Proof.Machine.execOraIsry d s
  | .trbDp d => Sys2Proof.Machine.execTrbDp d s
  | .oraDpx d => Sys2Proof.Machine.execOraDpx d s
  | .aslDpx d => Sys2Proof.Machine.execAslDpx d s
  | .oraIldpy d => Sys2Proof.Machine.execOraIldpy d s
  | .clc => Sys2Proof.Machine.execClc s
  | .oraAbsy a => Sys2Proof.Machine.execOraAbsy a s
  | .incAcc => Sys2Proof.Machine.execIncAcc s
  | .tcs => Sys2Proof.Machine.execTcs s
  | .trbAbs a => Sys2Proof.Machine.execTrbAbs a s
  | .oraAbsx a => Sys2Proof.Machine.execOraAbsx a s
  | .aslAbsx a => Sys2Proof.Machine.execAslAbsx a s
  | .oraLongx al => Sys2Proof.Machine.execOraLongx al s
  | .jsrAbs a => Sys2Proof.Machine.execJsrAbs a s
  | .andIdpx d => Sys2Proof.Machine.execAndIdpx d s
  | .jsl al => Sys2Proof.Machine.execJsl al s
  | .andSr d => Sys2Proof.Machine.execAndSr d s
  | .bitDp d => Sys2Proof.Machine.execBitDp d s
  | .andDp d => Sys2Proof.Machine.execAndDp d s
  | .rolDp d => Sys2Proof.Machine.execRolDp d s
  | .andIldp d => Sys2Proof.Machine.execAndIldp d s
  | .plp => Sys2Proof.Machine.execPlp s
  | .andImm v => Sys2Proof.Machine.execAndImm v s
  | .rolAcc => Sys2Proof.Machine.execRolAcc s
  | .pld => Sys2Proof.Machine.execPld s
  | .bitAbs a => Sys2Proof.Machine.execBitAbs a s
  | .andAbs a => Sys2Proof.Machine.execAndAbs a s
  | .rolAbs a => Sys2Proof.Machine.execRolAbs a s
  | .andLong al => Sys2Proof.Machine.execAndLong al s
  | .bmi o => Sys2Proof.Machine.execBmi o s
  | .andIdpy d => Sys2Proof.Machine.execAndIdpy d s
  | .andIdp d => Sys2Proof.Machine.execAndIdp d s
  | .andIsry d => Sys2Proof.Machine.execAndIsry d s
  | .bitDpx d => Sys2Proof.Machine.execBitDpx d s
  | .andDpx d => Sys2Proof.Machine.execAndDpx d s
  | .rolDpx d => Sys2Proof.Machine.execRolDpx d s
  | .andIldpy d => Sys2Proof.Machine.execAndIldpy d s
  | .sec => Sys2Proof.Machine.execSec s
  | .andAbsy a => Sys2Proof.Machine.execAndAbsy a s
  | .decAcc => Sys2Proof.Machine.execDecAcc s
  | .tsc => Sys2Proof.Machine.execTsc s
  | .bitAbsx a => Sys2Proof.Machine.execBitAbsx a s
  | .andAbsx a => Sys2Proof.Machine.execAndAbsx a s
  | .rolAbsx a => Sys2Proof.Machine.execRolAbsx a s
  | .andLongx al => Sys2Proof.Machine.execAndLongx al s
  | .rti => Sys2Proof.Machine.execRti s
  | .eorIdpx d => Sys2Proof.Machine.execEorIdpx d s
  | .wdm b => Sys2Proof.Machine.execWdm b s
  | .eorSr d => Sys2Proof.Machine.execEorSr d s
  | .mvp dst src => Sys2Proof.Machine.execMvp dst src s
  | .eorDp d => Sys2Proof.Machine.execEorDp d s
  | .lsrDp d => Sys2Proof.Machine.execLsrDp d s
  | .eorIldp d => Sys2Proof.Machine.execEorIldp d s
  | .pha => Sys2Proof.Machine.execPha s
  | .eorImm v => Sys2Proof.Machine.execEorImm v s
  | .lsrAcc => Sys2Proof.Machine.execLsrAcc s
  | .phk => Sys2Proof.Machine.execPhk s
  | .jmpAbs a => Sys2Proof.Machine.execJmpAbs a s
  | .eorAbs a => Sys2Proof.Machine.execEorAbs a s
  | .lsrAbs a => Sys2Proof.Machine.execLsrAbs a s
  | .eorLong al => Sys2Proof.Machine.execEorLong al s
  | .bvc o => Sys2Proof.Machine.execBvc o s
  | .eorIdpy d => Sys2Proof.Machine.execEorIdpy d s
  | .eorIdp d => Sys2Proof.Machine.execEorIdp d s
  | .eorIsry d => Sys2Proof.Machine.execEorIsry d s
  | .mvn dst src => Sys2Proof.Machine.execMvn dst src s
  | .eorDpx d => Sys2Proof.Machine.execEorDpx d s
  | .lsrDpx d => Sys2Proof.Machine.execLsrDpx d s
  | .eorIldpy d => Sys2Proof.Machine.execEorIldpy d s
  | .cli => Sys2Proof.Machine.execCli s
  | .eorAbsy a => Sys2Proof.Machine.execEorAbsy a s
  | .phy => Sys2Proof.Machine.execPhy s
  | .tcd => Sys2Proof.Machine.execTcd s
  | .jmlLong al => Sys2Proof.Machine.execJmlLong al s
  | .eorAbsx a => Sys2Proof.Machine.execEorAbsx a s
  | .lsrAbsx a => Sys2Proof.Machine.execLsrAbsx a s
  | .eorLongx al => Sys2Proof.Machine.execEorLongx al s
  | .rts => Sys2Proof.Machine.execRts s
  | .adcIdpx d => Sys2Proof.Machine.execAdcIdpx d s
  | .per o => Sys2Proof.Machine.execPer o s
  | .adcSr d => Sys2Proof.Machine.execAdcSr d s
  | .stzDp d => Sys2Proof.Machine.execStzDp d s
  | .adcDp d => Sys2Proof.Machine.execAdcDp d s
  | .rorDp d => Sys2Proof.Machine.execRorDp d s
  | .adcIldp d => Sys2Proof.Machine.execAdcIldp d s
  | .pla => Sys2Proof.Machine.execPla s
  | .adcImm v => Sys2Proof.Machine.execAdcImm v s
  | .rorAcc => Sys2Proof.Machine.execRorAcc s
  | .rtl => Sys2Proof.Machine.execRtl s
  | .jmpInd a => Sys2Proof.Machine.execJmpInd a s
  | .adcAbs a => Sys2Proof.Machine.execAdcAbs a s
  | .rorAbs a => Sys2Proof.Machine.execRorAbs a s
  | .adcLong al => Sys2Proof.Machine.execAdcLong al s
  | .bvs o => Sys2Proof.Machine.execBvs o s
  | .adcIdpy d => Sys2Proof.Machine.execAdcIdpy d s
  | .adcIdp d => Sys2Proof.Machine.execAdcIdp d s
  | .adcIsry d => Sys2Proof.Machine.execAdcIsry d s
  | .stzDpx d => Sys2Proof.Machine.execStzDpx d s
  | .adcDpx d => Sys2Proof.Machine.execAdcDpx d s
  | .rorDpx d => Sys2Proof.Machine.execRorDpx d s
  | .adcIldpy d => Sys2Proof.Machine.execAdcIldpy d s
  | .sei => Sys2Proof.Machine.execSei s
  | .adcAbsy a => Sys2Proof.Machine.execAdcAbsy a s
  | .ply => Sys2Proof.Machine.execPly s
  | .tdc => Sys2Proof.Machine.execTdc s
  | .jmpIndx a => Sys2Proof.Machine.execJmpIndx a s
  | .adcAbsx a => Sys2Proof.Machine.execAdcAbsx a s
  | .rorAbsx a => Sys2Proof.Machine.execRorAbsx a s
  | .adcLongx al => Sys2Proof.Machine.execAdcLongx al s
  | .bra o => Sys2Proof.Machine.execBra o s
  | .staIdpx d => Sys2Proof.Machine.execStaIdpx d s
  | .brl o => Sys2Proof.Machine.execBrl o s
  | .staSr d => Sys2Proof.Machine.execStaSr d s
  | .styDp d => Sys2Proof.Machine.execStyDp d s
  | .staDp d => Sys2Proof.Machine.execStaDp d s
  | .stxDp d => Sys2Proof.Machine.execStxDp d s
  | .staIldp d => Sys2Proof.Machine.execStaIldp d s
  | .dey => Sys2Proof.Machine.execDey s
  | .bitImm v => Sys2Proof.Machine.execBitImm v s
  | .txa => Sys2Proof.Machine.execTxa s
  | .phb => Sys2Proof.Machine.execPhb s
  | .styAbs a => Sys2Proof.Machine.execStyAbs a s
  | .staAbs a => Sys2Proof.Machine.execStaAbs a s
  | .stxAbs a => Sys2Proof.Machine.execStxAbs a s
  | .staLong al => Sys2Proof.Machine.execStaLong al s
  | .bcc o => Sys2Proof.Machine.execBcc o s
  | .staIdpy d => Sys2Proof.Machine.execStaIdpy d s
  | .staIdp d => Sys2Proof.Machine.execStaIdp d s
  | .staIsry d => Sys2Proof.Machine.execStaIsry d s
  | .styDpx d => Sys2Proof.Machine.execStyDpx d s
  | .staDpx d => Sys2Proof.Machine.execStaDpx d s
  | .stxDpy d => Sys2Proof.Machine.execStxDpy d s
  | .staIldpy d => Sys2Proof.Machine.execStaIldpy d s
  | .tya => Sys2Proof.Machine.execTya s
  | .staAbsy a => Sys2Proof.Machine.execStaAbsy a s
  | .txs => Sys2Proof.Machine.execTxs s
  | .txy => Sys2Proof.Machine.execTxy s
  | .stzAbs a => Sys2Proof.Machine.execStzAbs a s
  | .staAbsx a => Sys2Proof.Machine.execStaAbsx a s
  | .stzAbsx a => Sys2Proof.Machine.execStzAbsx a s
  | .staLongx al => Sys2Proof.Machine.execStaLongx al s
  | .ldyImm v => Sys2Proof.Machine.execLdyImm v s
  | .ldaIdpx d => Sys2Proof.Machine.execLdaIdpx d s
  | .ldxImm v => Sys2Proof.Machine.execLdxImm v s
  | .ldaSr d => Sys2Proof.Machine.execLdaSr d s
  | .ldyDp d => Sys2Proof.Machine.execLdyDp d s
  | .ldaDp d => Sys2Proof.Machine.execLdaDp d s
  | .ldxDp d => Sys2Proof.Machine.execLdxDp d s
  | .ldaIldp d => Sys2Proof.Machine.execLdaIldp d s
  | .tay => Sys2Proof.Machine.execTay s
  | .ldaImm v => Sys2Proof.Machine.execLdaImm v s
  | .tax => Sys2Proof.Machine.execTax s
  | .plb => Sys2Proof.Machine.execPlb s
  | .ldyAbs a => Sys2Proof.Machine.execLdyAbs a s
  | .ldaAbs a => Sys2Proof.Machine.execLdaAbs a s
  | .ldxAbs a => Sys2Proof.Machine.execLdxAbs a s
  | .ldaLong al => Sys2Proof.Machine.execLdaLong al s
  | .bcs o => Sys2Proof.Machine.execBcs o s
  | .ldaIdpy d => Sys2Proof.Machine.execLdaIdpy d s
  | .ldaIdp d => Sys2Proof.Machine.execLdaIdp d s
  | .ldaIsry d => Sys2Proof.Machine.execLdaIsry d s
  | .ldyDpx d => Sys2Proof.Machine.execLdyDpx d s
  | .ldaDpx d => Sys2Proof.Machine.execLdaDpx d s
  | .ldxDpy d => Sys2Proof.Machine.execLdxDpy d s
  | .ldaIldpy d => Sys2Proof.Machine.execLdaIldpy d s
  | .clv => Sys2Proof.Machine.execClv s
  | .ldaAbsy a => Sys2Proof.Machine.execLdaAbsy a s
  | .tsx => Sys2Proof.Machine.execTsx s
  | .tyx => Sys2Proof.Machine.execTyx s
  | .ldyAbsx a => Sys2Proof.Machine.execLdyAbsx a s
  | .ldaAbsx a => Sys2Proof.Machine.execLdaAbsx a s
  | .ldxAbsy a => Sys2Proof.Machine.execLdxAbsy a s
  | .ldaLongx al => Sys2Proof.Machine.execLdaLongx al s
  | .cpyImm v => Sys2Proof.Machine.execCpyImm v s
  | .cmpIdpx d => Sys2Proof.Machine.execCmpIdpx d s
  | .rep k => Sys2Proof.Machine.execRep k s
  | .cmpSr d => Sys2Proof.Machine.execCmpSr d s
  | .cpyDp d => Sys2Proof.Machine.execCpyDp d s
  | .cmpDp d => Sys2Proof.Machine.execCmpDp d s
  | .decDp d => Sys2Proof.Machine.execDecDp d s
  | .cmpIldp d => Sys2Proof.Machine.execCmpIldp d s
  | .iny => Sys2Proof.Machine.execIny s
  | .cmpImm v => Sys2Proof.Machine.execCmpImm v s
  | .dex => Sys2Proof.Machine.execDex s
  | .wai => Sys2Proof.Machine.execWai s
  | .cpyAbs a => Sys2Proof.Machine.execCpyAbs a s
  | .cmpAbs a => Sys2Proof.Machine.execCmpAbs a s
  | .decAbs a => Sys2Proof.Machine.execDecAbs a s
  | .cmpLong al => Sys2Proof.Machine.execCmpLong al s
  | .bne o => Sys2Proof.Machine.execBne o s
  | .cmpIdpy d => Sys2Proof.Machine.execCmpIdpy d s
  | .cmpIdp d => Sys2Proof.Machine.execCmpIdp d s
  | .cmpIsry d => Sys2Proof.Machine.execCmpIsry d s
  | .pei d => Sys2Proof.Machine.execPei d s
  | .cmpDpx d => Sys2Proof.Machine.execCmpDpx d s
  | .decDpx d => Sys2Proof.Machine.execDecDpx d s
  | .cmpIldpy d => Sys2Proof.Machine.execCmpIldpy d s
  | .cld => Sys2Proof.Machine.execCld s
  | .cmpAbsy a => Sys2Proof.Machine.execCmpAbsy a s
  | .phx => Sys2Proof.Machine.execPhx s
  | .stp => Sys2Proof.Machine.execStp s
  | .jmlIndl a => Sys2Proof.Machine.execJmlIndl a s
  | .cmpAbsx a => Sys2Proof.Machine.execCmpAbsx a s
  | .decAbsx a => Sys2Proof.Machine.execDecAbsx a s
  | .cmpLongx al => Sys2Proof.Machine.execCmpLongx al s
  | .cpxImm v => Sys2Proof.Machine.execCpxImm v s
  | .sbcIdpx d => Sys2Proof.Machine.execSbcIdpx d s
  | .sep k => Sys2Proof.Machine.execSep k s
  | .sbcSr d => Sys2Proof.Machine.execSbcSr d s
  | .cpxDp d => Sys2Proof.Machine.execCpxDp d s
  | .sbcDp d => Sys2Proof.Machine.execSbcDp d s
  | .incDp d => Sys2Proof.Machine.execIncDp d s
  | .sbcIldp d => Sys2Proof.Machine.execSbcIldp d s
  | .inx => Sys2Proof.Machine.execInx s
  | .sbcImm v => Sys2Proof.Machine.execSbcImm v s
  | .nop => Sys2Proof.Machine.execNop s
  | .xba => Sys2Proof.Machine.execXba s
  | .cpxAbs a => Sys2Proof.Machine.execCpxAbs a s
  | .sbcAbs a => Sys2Proof.Machine.execSbcAbs a s
  | .incAbs a => Sys2Proof.Machine.execIncAbs a s
  | .sbcLong al => Sys2Proof.Machine.execSbcLong al s
  | .beq o => Sys2Proof.Machine.execBeq o s
  | .sbcIdpy d => Sys2Proof.Machine.execSbcIdpy d s
  | .sbcIdp d => Sys2Proof.Machine.execSbcIdp d s
  | .sbcIsry d => Sys2Proof.Machine.execSbcIsry d s
  | .pea v => Sys2Proof.Machine.execPea v s
  | .sbcDpx d => Sys2Proof.Machine.execSbcDpx d s
  | .incDpx d => Sys2Proof.Machine.execIncDpx d s
  | .sbcIldpy d => Sys2Proof.Machine.execSbcIldpy d s
  | .sed => Sys2Proof.Machine.execSed s
  | .sbcAbsy a => Sys2Proof.Machine.execSbcAbsy a s
  | .plx => Sys2Proof.Machine.execPlx s
  | .xce => Sys2Proof.Machine.execXce s
  | .jsrIndx a => Sys2Proof.Machine.execJsrIndx a s
  | .sbcAbsx a => Sys2Proof.Machine.execSbcAbsx a s
  | .incAbsx a => Sys2Proof.Machine.execIncAbsx a s
  | .sbcLongx al => Sys2Proof.Machine.execSbcLongx al s

end Sys2Proof.Machine
end

