-- ==== Sys2Proof/Machine/Step.lean ====
section
/-! DEFINITION. One step: the environment's inputs, the check between steps, and what it finds to do (R10,
R404). -/

namespace Sys2Proof.Machine

/-- Execute the instruction at `PBR:PC` (case 8 of R404). -/
def runInstr (s : State) : Result :=
  match s.fetchInstr with
  | .error _ => .refused .undecodable
  | .ok i =>
    if s.emuRefusesInstr i then .refused .emuExt
    else mapNext State.endStep (exec i (s.advance i))

/-- Abort the instruction at `PBR:PC` (case 7 of R404, R420). -/
def runAbort (s : State) : Result :=
  if s.emuChecked then .refused .emuExt else .next s.takeAbort.endStep

/-- Perform what the check found (R404). -/
def perform (s : State) : Action → Result
  | .reset => .next s.resetEvent.endStep
  | .idle => .next s.forceStackPage
  | .interrupt k => .next (s.resume.enter k).endStep
  | .wake => .next s.resume.forceStackPage
  | .abort => runAbort s
  | .execute => runInstr s

/-- One step on a state whose inputs are up to date. -/
def stepChecked (s : State) : Result :=
  if s.emuRefusesState then .refused .emuExt else perform s s.check

/-- One step of the machine. -/
def step (s : State) : Host.Outcome State Fault Refusal := stepChecked s.pollInputs

/-- `s` with an instruction stored where the next step fetches, and nothing that would keep that step from
running it. -/
def State.withFetchWord (s : State) (nbits w : Nat) : State :=
  s.readyToExecute.placeBytes 0 (tableBytes nbits w)

end Sys2Proof.Machine
end

