-- ==== Sys2Proof/Safety.lean ====
section
/-! DEFINITION. What claims about the machine are said in: the states a run can be in, what a step changed, and
which bytes an instruction may write. -/

namespace Sys2Proof.Machine

/-! ## Well-formed states -/

/-- The emulation-mode invariants of R42: m and x are 1 and SH is `$01`. -/
def State.modeOk (s : State) : Bool := !s.e || (s.flag .m && s.flag .x && highByte s.sp == 1)

/-- The index registers' high bytes are zero while `P.X = 1` (R23). -/
def State.indexOk (s : State) : Bool := !s.flag .x || (highByte s.x == 0 && highByte s.y == 0)

/-- A well-formed state: R42, R23 and memory in canonical form. -/
def State.wf (s : State) : Bool := s.modeOk && s.indexOk && Memory.wf s.mem

/-! ## What changed between two states -/

/-- `exec` answers a next state, and it has the property. -/
def Answers (i : Instr) (s : State) (post : State → Prop) : Prop := ∃ t, exec i s = .next t ∧ post t

/-- `step` answers a next state, and it has the property. -/
def StepAnswers (s : State) (post : State → Prop) : Prop := ∃ t, step s = .next t ∧ post t

/-- The listed flags have the listed values afterwards and every other flag is as before. -/
def Sets (s t : State) (fs : List (Flag × Bool)) : Prop :=
  (∀ fb ∈ fs, t.flag fb.1 = fb.2) ∧ ∀ f, f ∉ fs.map Prod.fst → t.flag f = s.flag f

/-- Every byte of memory after the listed writes: a RAM byte written reads as the last value written to it, and
every other byte reads as before. -/
def Wrote (s t : State) (ws : List (Addr × Byte)) : Prop :=
  ∀ a, t.readByte a =
    match ws.reverse.lookup a with
    | some v => if kindAt s.platform.memMap a.toNat = .ram then v else s.readByte a
    | none => s.readByte a

/-- The writes of a store of a width at an effective address, low byte first. -/
def storeWrites (ea : Ea) (w : Width) (v : Word) : List (Addr × Byte) :=
  match w with
  | .byte => [(ea.first, lowByte v)]
  | .word => [(ea.first, lowByte v), (ea.second, highByte v)]

/-- A number at a width, modulo `2^(8w)` (R202). -/
def wrap (w : Width) (z : Int) : Word := BitVec.ofInt 16 (z % 2 ^ w.bits)

/-- N and Z of a result of a width (R32, R38). -/
def nz (w : Width) (r : Word) : List (Flag × Bool) := [(.n, decide (2 ^ (w.bits - 1) ≤ r.toNat)), (.z, decide (r = 0))]

/-- Nothing but the accumulator and P differs: `Acc` is `r`, and with `P.M = 1` B is as before (R8, R21). -/
def AccBecomes (s t : State) (r : Word) : Prop :=
  t = { s with c := t.c, p := t.p } ∧ s.wM.trunc t.c = r ∧ (s.wM = .byte → highByte t.c = highByte s.c)

/-- A shift or rotate by one bit on numbers: the result and the bit shifted out; `cin` is the old carry (R240 to
R243). -/
def shiftedNat (op : ShiftOp) (bits cin v : Nat) : Nat × Nat :=
  match op with
  | .asl => (2 * v % 2 ^ bits, v / 2 ^ (bits - 1) % 2)
  | .lsr => (v / 2, v % 2)
  | .rol => ((2 * v + cin) % 2 ^ bits, v / 2 ^ (bits - 1) % 2)
  | .ror => (v / 2 + cin * 2 ^ (bits - 1), v % 2)

/-! ## Addresses as numbers (R130, R140, R141) -/

/-- An access with the linear increment: the low byte at `n`, the next one 24 bits wide behind it (R74). -/
def LinearAt (ea : Ea) (n : Nat) : Prop := ea.first.toNat = n % 2 ^ 24 ∧ ea.second.toNat = (n + 1) % 2 ^ 24

/-- An access in bank `$00` with the bank-wrap increment (R74). -/
def BankZeroAt (ea : Ea) (n : Nat) : Prop := ea.first.toNat = n % 2 ^ 16 ∧ ea.second.toNat = (n + 1) % 2 ^ 16

/-- X at its current width, as a number (R130). -/
def State.xNat (s : State) : Nat := if s.flag .x then s.x.toNat % 256 else s.x.toNat

/-- Y at its current width, as a number (R130). -/
def State.yNat (s : State) : Nat := if s.flag .x then s.y.toNat % 256 else s.y.toNat

/-- `DirectAddr(off)` of R140 on numbers. -/
def State.directNat (s : State) (off : Nat) : Nat :=
  if s.e = true ∧ s.d.toNat % 256 = 0 then s.d.toNat + off % 256 else (s.d.toNat + off) % 2 ^ 16

/-- Where `DirectPtr16(off)` of R141 has its high byte. -/
def State.directHighNat (s : State) (off : Nat) : Nat :=
  if s.e = true ∧ s.d.toNat % 256 = 0 then s.d.toNat + (off + 1) % 256 else (s.directNat off + 1) % 2 ^ 16

/-- The byte at a numbered address. -/
def State.byteAt (s : State) (n : Nat) : Nat := (s.readByte (BitVec.ofNat 24 n)).toNat

/-- `DirectPtr16(off)` of R141 on numbers. -/
def State.directPtrNat (s : State) (off : Nat) : Nat :=
  s.byteAt (s.directNat off) + 256 * s.byteAt (s.directHighNat off)

/-- The case of mode (d,x) that R141 leaves open (U6). -/
def State.pointerOpen (s : State) (off : Nat) : Prop :=
  s.e = true ∧ s.d.toNat % 256 ≠ 0 ∧ s.directNat off % 256 = 255

/-- `MemRead0(off, 2)` on numbers (R9). -/
def State.bank0Word (s : State) (off : Nat) : Nat := s.byteAt (off % 2 ^ 16) + 256 * s.byteAt ((off + 1) % 2 ^ 16)

/-- `MemRead0(off, 3)` on numbers (R9). -/
def State.bank0Long (s : State) (off : Nat) : Nat := s.bank0Word off + 65536 * s.byteAt ((off + 2) % 2 ^ 16)

/-! ## The stack in closed form (R280, R281) -/

/-- The stack offset `n` bytes above S (below, for a negative `n`): in page 1 for the inherited instructions
while `E = 1`, in bank `$00` otherwise. -/
def State.stackSlot (s : State) (k : StackRule) (n : Word) : Word :=
  if n = 0 then s.sp
  else if s.e ∧ k = .page then joinBytes 0x01 (lowByte s.sp + lowByte n)
  else s.sp + n

/-- The byte in a stack slot. -/
def State.stackByte (s : State) (k : StackRule) (n : Word) : Byte :=
  s.readByte (joinAddr 0 (s.stackSlot k n))

/-- The writes that push bytes, the first pushed at S. -/
def State.pushWrites (s : State) (k : StackRule) (bytes : List Byte) : List (Addr × Byte) :=
  bytes.zipIdx.map fun bn => (joinAddr 0 (s.stackSlot k (-BitVec.ofNat 16 bn.2)), bn.1)

/-- The listed bytes were pushed, in this order: memory and S. -/
def Pushed (s t : State) (k : StackRule) (bytes : List Byte) : Prop :=
  Wrote s t (s.pushWrites k bytes) ∧ t.sp = s.stackSlot k (-BitVec.ofNat 16 bytes.length)

/-- The bytes of a value of a width in push order: high byte first (R282). -/
def pushOrder (w : Width) (v : Word) : List Byte :=
  match w with
  | .byte => [lowByte v]
  | .word => [highByte v, lowByte v]

/-- What a pull of a width finds on the stack (R281, R282). -/
def State.pulled (s : State) (k : StackRule) (w : Width) : Word :=
  match w with
  | .byte => zeroExtend8 (s.stackByte k 1)
  | .word => joinBytes (s.stackByte k 2) (s.stackByte k 1)

/-- How many bytes a width has. -/
def byteCount : Width → Nat
  | .byte => 1
  | .word => 2

/-! ## Interrupt entry (R400, R410) -/

/-- The P byte an entry pushes (R41). -/
def statusPushed (k : IntKind) (s : State) : Byte :=
  if s.e then (if k = .brk ∨ k = .cop then s.p ||| 0x10 else s.p &&& 0xEF) else s.p

/-- `t` is `s` after the entry of event `k` through vector `v` with return address `s.pc` (R410). -/
def Entered (k : IntKind) (v : Word) (s t : State) : Prop :=
  t = { s with mem := t.mem, sp := t.sp, p := t.p, pbr := 0, pc := t.pc,
               nmiPending := if k = .nmi then false else s.nmiPending }
  ∧ Pushed s t .page ((if s.e then [] else [s.pbr]) ++ [highByte s.pc, lowByte s.pc, statusPushed k s])
  ∧ Sets s t [(.d, false), (.i, true)]
  ∧ t.pc = joinBytes (t.readByte (joinAddr 0 (v + 1))) (t.readByte (joinAddr 0 v))

/-- A step that began in `u` ended in `t` after its work left it in `w`: S is forced to page 1 while `E = 1`
(R25), and the model's draw counter moved on. -/
def EndsStep (u w t : State) : Prop :=
  t = { w with sp := if w.e then joinBytes 0x01 (lowByte w.sp) else w.sp, draws := u.draws + 1 }

/-! ## Forms of an instruction -/

/-- The opcodes and addressing modes of a mnemonic are exactly the listed ones. -/
def HasForms (mn : Mnemonic) (forms : List (Byte × Format)) : Prop :=
  ∀ i : Instr, i.mnemonic = mn ↔ (i.opcode, i.operand.format) ∈ forms

/-- Every form of a mnemonic, with the value its source operand has at a width: an immediate, or what memory
holds at the effective address (R130, R131). -/
def OnOperand (mn : Mnemonic) (s : State) (w : Width) (claim : Instr → Word → Prop) : Prop :=
  (∀ i v, i.mnemonic = mn → (i.operand = .immM v ∨ i.operand = .immX v) → claim i (w.trunc v))
  ∧ ∀ i md, i.mnemonic = mn → i.operand = .data md → claim i (s.load (s.ea md) w)

/-- Every memory form of a mnemonic, with its memory mode. -/
def OnMemory (mn : Mnemonic) (claim : Instr → MemMode → Prop) : Prop :=
  ∀ i md, i.mnemonic = mn → i.operand = .data md → claim i md

/-! ## Which bytes an instruction may write -/

/-- The addresses of the memory operand at a width; none where the operand is not in memory. -/
def operandAddrs (s : State) (w : Width) : Operand → List Addr
  | .data md => (s.ea md).addrs w
  | .imp | .acc | .immM _ | .immX _ | .imm8 _ | .imm16 _ | .sig _ | .ind _ | .indx _ | .indl _
  | .rel8 _ | .rel16 _ | .blk _ _ => []

/-- The addresses of the next `n` pushes. -/
def State.pushAddrs (s : State) (k : StackRule) (n : Nat) : List Addr :=
  (List.range n).map fun j => joinAddr 0 (s.stackSlot k (-BitVec.ofNat 16 j))

/-- The addresses an instruction stores to (R173 to R176, R196, R197, R224, R225, R240 to R243, R283, R390). -/
def storedAddrs (i : Instr) (s : State) : List Addr :=
  match i.mnemonic with
  | .sta | .stz | .tsb | .trb | .inc | .dec | .asl | .lsr | .rol | .ror => operandAddrs s s.wM i.operand
  | .stx | .sty => operandAddrs s s.wX i.operand
  | .pha => s.pushAddrs .page (byteCount s.wM)
  | .phx | .phy => s.pushAddrs .page (byteCount s.wX)
  | .php | .phb | .phk => s.pushAddrs .page 1
  | .phd | .pea | .pei | .per => s.pushAddrs .wide 2
  | .jsr => if i.operand.format = .abs then s.pushAddrs .page 2 else s.pushAddrs .wide 2
  | .jsl => s.pushAddrs .wide 3
  | .brk | .cop => s.pushAddrs .page (if s.e then 3 else 4)
  | .mvn | .mvp =>
    match i.operand with
    | .blk dst _ => [joinAddr dst s.idxY]
    | .imp | .acc | .immM _ | .immX _ | .imm8 _ | .imm16 _ | .sig _ | .data _ | .ind _ | .indx _ | .indl _
    | .rel8 _ | .rel16 _ => []
  | .ora | .bpl | .clc | .tcs | .and | .bit | .plp | .pld | .bmi | .sec | .tsc | .rti | .eor | .wdm | .jmp
  | .bvc | .cli | .tcd | .jml | .rts | .adc | .pla | .rtl | .bvs | .sei | .ply | .tdc | .bra | .brl | .dey
  | .txa | .bcc | .tya | .txs | .txy | .ldy | .lda | .ldx | .tay | .tax | .plb | .bcs | .clv | .tsx | .tyx
  | .cpy | .cmp | .rep | .iny | .dex | .wai | .bne | .cld | .stp | .cpx | .sbc | .sep | .inx | .nop | .xba
  | .beq | .sed | .plx | .xce => []

/-! ## The same instruction again and again -/

/-- `n` steps that each execute the same instruction, with PC moved past it first as a step does (R10). -/
def runSame (i : Instr) : Nat → State → Option State
  | 0, s => some s
  | n + 1, s =>
    match exec i (s.advance i) with
    | .next t => runSame i n t
    | .fault _ | .refused _ => none

/-- The address `j` bytes into a block: the index wraps at its width and the bank stays (R390, R391). -/
def blockAddr (bank : Byte) (w : Width) (start : Word) (dir : Int) (j : Nat) : Addr :=
  joinAddr bank (wrap w (start.toNat + dir * j))

end Sys2Proof.Machine
end

