-- ==== Sys2Proof/Certificates/Slice0/Obligations.lean ====
section
/-! DEFINITION. The statements for the provers. `exec` is stated on a state whose PC already stands at the next
instruction (`PCnext`, R10). -/

open Sys2Proof Sys2Proof.Machine

/-- For every instruction and every value of its operands that the width flags admit, the decoder reads the
encoded bytes back to the same instruction and leaves the bytes that follow. Derived from R100, R101, R103,
R105. -/
def Obligations.DecodeInvertsEncode : Prop :=
  ∀ (m x : Bool) (i : Instr) (rest : List Byte), i.wf m x = true → decode m x (encode m x i ++ rest) = .ok (i, rest)

/-- Whenever bytes decode, they are the encoding of the instruction answered followed by the bytes left over,
and the instruction is well-formed under the width flags: no operand bit is dropped or made up. Derived from
R100, R101, R103. -/
def Obligations.EncodeInvertsDecode : Prop :=
  ∀ (m x : Bool) (bytes rest : List Byte) (i : Instr),
    decode m x bytes = .ok (i, rest) → bytes = encode m x i ++ rest ∧ i.wf m x = true

/-- Four bytes from any address always decode, whatever the first one is, to an instruction whose opcode is that
byte; only bytes that end too early are rejected. Derived from R105, R107. -/
def Obligations.EveryOpcodeIsAnInstruction : Prop :=
  (∀ (m x : Bool) (op o1 o2 o3 : Byte),
    ∃ i rest, decode m x [op, o1, o2, o3] = .ok (i, rest) ∧ i.opcode = op)
  ∧ (∀ (m x : Bool) (bytes : List Byte) (err : DecodeError),
    decode m x bytes = .error err → err = .truncated ∧ bytes.length < 4)

/-- An instruction has one byte more than its mode has operand bytes: by the table of R102 for every mode, with
the twelve immediate opcodes named there the only ones whose length depends on m or x; and that is how many
bytes its encoding has and how far a step moves PC. Formalises R102. -/
def Obligations.InstructionLengths : Prop :=
  (∀ (m x : Bool) (i : Instr), (encode m x i).length = i.length m x
    ∧ i.length m x = 1 +
      match i.operand.format with
      | .imp | .acc => 0
      | .sig | .imm8 | .dp | .dpx | .dpy | .idp | .idpx | .idpy | .ildp | .ildpy | .sr | .isry | .rel8 => 1
      | .imm16 | .abs | .absx | .absy | .ind | .indx | .indl | .rel16 | .blk => 2
      | .long | .longx => 3
      | .immM => if m then 1 else 2
      | .immX => if x then 1 else 2)
  ∧ (∀ i : Instr, i.operand.format = .immM ↔ i.opcode ∈ [0x09, 0x29, 0x49, 0x69, 0x89, 0xA9, 0xC9, 0xE9])
  ∧ (∀ i : Instr, i.operand.format = .immX ↔ i.opcode ∈ [0xA0, 0xA2, 0xC0, 0xE0])
  ∧ ∀ (s : State) (i : Instr),
    (s.advance i).pc.toNat = (s.pc.toNat + (encode (s.flag .m) (s.flag .x) i).length) % 2 ^ 16

/-- Sanity: a few words of the spec's own examples, first byte least significant, decode to the instruction they
stand for. Derived from R101, R105. -/
def Obligations.SpecWordsDecode : Prop :=
  decodeTableWord 16 0x10A5 = some (.ldaDp 0x10)
  ∧ decodeTableWord 24 0x20008D = some (.staAbs 0x2000)
  ∧ decodeTableWord 32 0x12345622 = some (.jsl 0x123456)
  ∧ decodeTableWord 24 0x7E7F54 = some (.mvn 0x7F 0x7E)
  ∧ decodeTableWord 24 0x9000FC = some (.jsrIndx 0x9000)
  ∧ decodeTableWord 16 0xFED0 = some (.bne 0xFE)
  ∧ decodeTableWord 24 0x100082 = some (.brl 0x1000)
  ∧ decodeTableWord 16 0x30C2 = some (.rep 0x30)
  ∧ decodeTableWord 8 0xFB = some .xce
  ∧ decode true true [0xA9, 0x00, 0x8D] = .ok (.ldaImm 0x00, [0x8D])
  ∧ decode false false [0xA9, 0x00, 0x8D] = .ok (.ldaImm 0x8D00, [])

/-- When the check finds nothing else to do, EMU_EXT does not refuse the step and the bytes from PBR:PC on
decode to i, the step is exec of i on the state with PC past the instruction's bytes (modulo 2^16, in the
same bank); at the end of the step S is forced to page 1 while E is 1. The four bytes are fetched at PC,
PC+1, PC+2, PC+3 of bank PBR. That the inputs come from the schedule (log 9) and that a step advances the
draw counter (log 10) is the model's choice. Derived from R10, R30, R404, R25. -/
def Obligations.StepRunsTheDecodedInstruction : Prop :=
  ∀ (s : State) (i : Instr) (rest : List Byte), s.pollInputs.check = .execute →
    s.pollInputs.emuRefusesState = false → s.pollInputs.emuRefusesInstr i = false →
    decode (s.flag .m) (s.flag .x)
      ([0, 1, 2, 3].map fun k => s.readByte (joinAddr s.pbr (s.pc + BitVec.ofNat 16 k))) = .ok (i, rest) →
    (∃ w, exec i { s.pollInputs with pc := s.pc + BitVec.ofNat 16 (encode (s.flag .m) (s.flag .x) i).length }
        = .next w ∧ StepAnswers s (EndsStep s w))

/-- exec answers a next state for every instruction on every state, and under EMU_EXT = chip step answers a next
state from every state: no operand value, address, mode, opcode or pending event stops the machine. In one
case this is the model's choice and not the spec's (log 8, DESIGN CHOICE): mode (d,x) with E = 1, DL not
zero and the pointer's low byte at an address ending in $FF, which R141 and U6 treat as refuse, runs here
with a free pointer high byte. Derived from R401, R107, R6. -/
def Obligations.StepNeverStopsOnTheChip : Prop :=
  (∀ (i : Instr) (s : State), ∃ t, exec i s = .next t)
  ∧ ∀ s : State, s.platform.emuExt = .chip → ∃ t, step s = .next t

/-- From every well-formed state (E = 1 implies m = x = 1 and SH = $01; x = 1 implies XH = YH = $00; memory in
canonical form) a step that answers a next state answers a well-formed one, whatever it did: an instruction,
an interrupt, an abort, a reset or nothing. The canonical form of memory is the model's own (log 6). Derived
from R23, R25, R42. -/
def Obligations.StepKeepsStateWellFormed : Prop :=
  ∀ s t : State, s.wf = true → step s = .next t → t.wf = true

/-- State.reset is well-formed: emulation mode with m = x = 1 and SH = $01, zero index high bytes, canonical
memory. The values of SL, XL and YL there are the model's (log 7). Derived from R23, R42, R48. -/
def Obligations.ResetStateIsWellFormed : Prop :=
  State.reset.wf = true

/-- From every state, well-formed or not: if a step answers a state with E = 1, that state's SH is $01, so every
stack address S holds lies in $000100 to $0001FF. Formalises R25. -/
def Obligations.StackPageForcedAtEveryStepEnd : Prop :=
  ∀ s t : State, step s = .next t → t.e = true →
    highByte t.sp = 0x01 ∧ 0x000100 ≤ t.stackTop.toNat ∧ t.stackTop.toNat ≤ 0x0001FF

/-- E = 1, m = x = 1, I = 1, D = 0, XH = YH = $00, SH = $01, D = $0000, DBR = PBR = $00, running, no NMI
pending, and PC is what memory holds at $00FFFC and $00FFFD. What A, B, XL, YL, SL, N, V, Z, C hold there is
the model's choice (log 7) and is not stated. Derived from R48. -/
def Obligations.ResetStateHasTheSpecValues : Prop :=
  State.reset.e = true ∧ State.reset.flag .m = true ∧ State.reset.flag .x = true ∧ State.reset.flag .i = true
  ∧ State.reset.flag .d = false ∧ highByte State.reset.x = 0 ∧ highByte State.reset.y = 0
  ∧ highByte State.reset.sp = 0x01 ∧ State.reset.d = 0 ∧ State.reset.dbr = 0 ∧ State.reset.pbr = 0
  ∧ State.reset.run = .running ∧ State.reset.nmiPending = false
  ∧ State.reset.pc = joinBytes (State.reset.readByte 0x00FFFD) (State.reset.readByte 0x00FFFC)

/-- As numbers modulo 2^24: DBR:a; DBR:a + X; DBR:a + Y; al; al + X, with the index at its current width; the
second data byte is at the next 24-bit address, so both carry into the next bank. Derived from R132, R133,
R134, R135, R136, R74, R162. -/
def Obligations.AbsoluteAddresses : Prop :=
  ∀ (s : State) (a : Word) (al : Addr),
    LinearAt (s.ea (.abs a)) (s.dbr.toNat * 65536 + a.toNat)
    ∧ LinearAt (s.ea (.absx a)) (s.dbr.toNat * 65536 + a.toNat + s.xNat)
    ∧ LinearAt (s.ea (.absy a)) (s.dbr.toNat * 65536 + a.toNat + s.yNat)
    ∧ LinearAt (s.ea (.long al)) al.toNat
    ∧ LinearAt (s.ea (.longx al)) (al.toNat + s.xNat)

/-- d, d,x and d,y lie in bank $00 at DirectAddr(d), DirectAddr(d + X), DirectAddr(d + Y): within the page at D
when E = 1 and DL = $00, and at (D + offset) modulo 2^16 otherwise; the second data byte is at the next
offset modulo 2^16. Derived from R140, R142, R143, R144, R162. -/
def Obligations.DirectPageAddresses : Prop :=
  ∀ (s : State) (d : Byte),
    BankZeroAt (s.ea (.dp d)) (s.directNat d.toNat)
    ∧ BankZeroAt (s.ea (.dpx d)) (s.directNat (d.toNat + s.xNat))
    ∧ BankZeroAt (s.ea (.dpy d)) (s.directNat (d.toNat + s.yNat))

/-- (d), (d,x) and (d),y take a 16-bit pointer by DirectPtr16 and the bank from DBR, with Y added over 24 bits;
[d] and [d],y take a 24-bit pointer at (D + d), wrapping in bank $00 and never in the page. The one case of
(d,x) that R141 leaves open (E = 1, DL not zero, pointer low byte at an address ending in $FF) is excluded;
there the model's pointer has a free high byte (log 8). Derived from R141, R145, R146, R147, R148, R149,
R162. -/
def Obligations.IndirectAddresses : Prop :=
  ∀ (s : State) (d : Byte),
    LinearAt (s.ea (.idp d)) (s.dbr.toNat * 65536 + s.directPtrNat d.toNat)
    ∧ (¬ s.pointerOpen (d.toNat + s.xNat) →
      LinearAt (s.ea (.idpx d)) (s.dbr.toNat * 65536 + s.directPtrNat (d.toNat + s.xNat)))
    ∧ LinearAt (s.ea (.idpy d)) (s.dbr.toNat * 65536 + s.directPtrNat d.toNat + s.yNat)
    ∧ LinearAt (s.ea (.ildp d)) (s.bank0Long (s.d.toNat + d.toNat))
    ∧ LinearAt (s.ea (.ildpy d)) (s.bank0Long (s.d.toNat + d.toNat) + s.yNat)

/-- d,s lies in bank $00 at (S + d) modulo 2^16 in both modes; (d,s),y takes a 16-bit pointer there, the bank
from DBR, and Y added over 24 bits. S does not change (the statements about the instructions that use the
modes say so). Formalises R150, R151. -/
def Obligations.StackRelativeAddresses : Prop :=
  ∀ (s : State) (d : Byte),
    BankZeroAt (s.ea (.sr d)) (s.sp.toNat + d.toNat)
    ∧ LinearAt (s.ea (.isry d)) (s.dbr.toNat * 65536 + s.bank0Word (s.sp.toNat + d.toNat) + s.yNat)

/-- Every form of LDA answers a next state: the accumulator at width m takes the operand, B stays when m = 1, N
and Z are set from the value, and nothing else changes. Formalises R170. -/
def Obligations.LdaLoadsTheAccumulator : Prop :=
  HasForms .lda [(0xA9, .immM), (0xAD, .abs), (0xAF, .long), (0xA5, .dp), (0xB2, .idp), (0xA7, .ildp),
    (0xBD, .absx), (0xBF, .longx), (0xB9, .absy), (0xB5, .dpx), (0xA1, .idpx), (0xB1, .idpy), (0xB7, .ildpy),
    (0xA3, .sr), (0xB3, .isry)]
  ∧ ∀ s : State, OnOperand .lda s s.wM fun i v => Answers i s fun t =>
    AccBecomes s t v ∧ Sets s t (nz s.wM v)

/-- Every form answers a next state: the index register takes the operand of width x, zero-extended, N and Z are
set from the value, and nothing else changes. Formalises R171, R172. -/
def Obligations.LdxLdyLoadAnIndex : Prop :=
  HasForms .ldx [(0xA2, .immX), (0xAE, .abs), (0xA6, .dp), (0xBE, .absy), (0xB6, .dpy)] ∧
  HasForms .ldy [(0xA0, .immX), (0xAC, .abs), (0xA4, .dp), (0xBC, .absx), (0xB4, .dpx)]
  ∧ ∀ s : State,
    (OnOperand .ldx s s.wX fun i v => Answers i s fun t =>
      t = { s with x := v, p := t.p } ∧ Sets s t (nz s.wX v))
    ∧ (OnOperand .ldy s s.wX fun i v => Answers i s fun t =>
      t = { s with y := v, p := t.p } ∧ Sets s t (nz s.wX v))

/-- Every form answers a next state in which exactly the bytes of the operand's width at the effective address
were written, low byte first (the accumulator or zero at width m, X or Y at width x); every other byte,
every register and every flag is as before. Formalises R173, R174, R175, R176. -/
def Obligations.StoresWriteMemory : Prop :=
  HasForms .sta [(0x8D, .abs), (0x8F, .long), (0x85, .dp), (0x92, .idp), (0x87, .ildp), (0x9D, .absx),
    (0x9F, .longx), (0x99, .absy), (0x95, .dpx), (0x81, .idpx), (0x91, .idpy), (0x97, .ildpy), (0x83, .sr),
    (0x93, .isry)] ∧
  HasForms .stx [(0x8E, .abs), (0x86, .dp), (0x96, .dpy)] ∧
  HasForms .sty [(0x8C, .abs), (0x84, .dp), (0x94, .dpx)] ∧
  HasForms .stz [(0x9C, .abs), (0x64, .dp), (0x9E, .absx), (0x74, .dpx)]
  ∧ ∀ s : State,
    (OnMemory .sta fun i md => Answers i s fun t =>
      t = { s with mem := t.mem } ∧ Wrote s t (storeWrites (s.ea md) s.wM s.c))
    ∧ (OnMemory .stx fun i md => Answers i s fun t =>
      t = { s with mem := t.mem } ∧ Wrote s t (storeWrites (s.ea md) s.wX s.x))
    ∧ (OnMemory .sty fun i md => Answers i s fun t =>
      t = { s with mem := t.mem } ∧ Wrote s t (storeWrites (s.ea md) s.wX s.y))
    ∧ (OnMemory .stz fun i md => Answers i s fun t =>
      t = { s with mem := t.mem } ∧ Wrote s t (storeWrites (s.ea md) s.wM 0))

/-- Every form answers a next state. Binary: the accumulator takes (a + b + C) modulo 2^(8w), C is the carry
out, V the signed overflow, N and Z from the result. Decimal: result, C and V are BCD.add's (R192), N and Z
from the decimal result. B stays when m = 1 and nothing else changes. Formalises R190. -/
def Obligations.AdcAddsWithCarry : Prop :=
  HasForms .adc [(0x69, .immM), (0x6D, .abs), (0x6F, .long), (0x65, .dp), (0x72, .idp), (0x67, .ildp),
    (0x7D, .absx), (0x7F, .longx), (0x79, .absy), (0x75, .dpx), (0x61, .idpx), (0x71, .idpy), (0x77, .ildpy),
    (0x63, .sr), (0x73, .isry)]
  ∧ ∀ s : State, OnOperand .adc s s.wM fun i b => Answers i s fun t =>
    (s.flag .d = false →
      let sum := s.acc.toNat + b.toNat + carryNat (s.flag .c)
      let r := wrap s.wM sum
      AccBecomes s t r
      ∧ Sets s t ([(.c, decide (2 ^ s.wM.bits ≤ sum)),
        (.v, s.wM.msb s.acc == s.wM.msb b && s.wM.msb r != s.wM.msb s.acc)] ++ nz s.wM r))
    ∧ (s.flag .d = true →
      let res := bcdAdd s.platform.bcd s.wM s.acc b (s.flag .c)
      AccBecomes s t res.r ∧ Sets s t ([(.c, res.c), (.v, res.v)] ++ nz s.wM res.r))

/-- Every form answers a next state. Binary: the accumulator takes (a - b - (1 - C)) modulo 2^(8w), C = 1
exactly when no borrow occurred, V is the signed overflow, N and Z from the result. Decimal: BCD.sub's
result, C and V (R192), N and Z from the decimal result. B stays when m = 1 and nothing else changes.
Formalises R191. -/
def Obligations.SbcSubtractsWithBorrow : Prop :=
  HasForms .sbc [(0xE9, .immM), (0xED, .abs), (0xEF, .long), (0xE5, .dp), (0xF2, .idp), (0xE7, .ildp),
    (0xFD, .absx), (0xFF, .longx), (0xF9, .absy), (0xF5, .dpx), (0xE1, .idpx), (0xF1, .idpy), (0xF7, .ildpy),
    (0xE3, .sr), (0xF3, .isry)]
  ∧ ∀ s : State, OnOperand .sbc s s.wM fun i b => Answers i s fun t =>
    (s.flag .d = false →
      let less := b.toNat + (1 - carryNat (s.flag .c))
      let r := wrap s.wM ((s.acc.toNat : Int) - less)
      AccBecomes s t r
      ∧ Sets s t ([(.c, decide (less ≤ s.acc.toNat)),
        (.v, s.wM.msb s.acc != s.wM.msb b && s.wM.msb r != s.wM.msb s.acc)] ++ nz s.wM r))
    ∧ (s.flag .d = true →
      let res := bcdSub s.platform.bcd s.wM s.acc b (s.flag .c)
      AccBecomes s t res.r ∧ Sets s t ([(.c, res.c), (.v, res.v)] ++ nz s.wM res.r))

/-- For either choice of BCD, both widths, any carry and any valid operands: the result is valid BCD, its digits
are the sum or difference modulo 10^(2w), and the carry is the decimal carry (not-borrow). What V and
results on invalid operands are is not stated: the candidate is an assumption (log 4) and the other choice
leaves them free. Derived from R192. -/
def Obligations.DecimalArithmeticObeysTheLaw : Prop :=
  ∀ (choice : BcdChoice) (w : Width) (a b : Word) (cin : Bool), validBcd w a = true → validBcd w b = true →
    (validBcd w (bcdAdd choice w a b cin).r = true
      ∧ decOf w (bcdAdd choice w a b cin).r = (decOf w a + decOf w b + carryNat cin) % 10 ^ (w.bits / 4)
      ∧ ((bcdAdd choice w a b cin).c = true ↔ 10 ^ (w.bits / 4) ≤ decOf w a + decOf w b + carryNat cin))
    ∧ (validBcd w (bcdSub choice w a b cin).r = true
      ∧ (decOf w (bcdSub choice w a b cin).r : Int)
        = ((decOf w a : Int) - decOf w b - (1 - carryNat cin)) % (10 ^ (w.bits / 4) : Int)
      ∧ ((bcdSub choice w a b cin).c = true ↔ decOf w b + (1 - carryNat cin) ≤ decOf w a))

/-- Every form answers a next state: C is the unsigned comparison register >= operand, N and Z come from the
difference modulo 2^(8w), whatever P.C and P.D were; V and everything else are as before. Formalises R193,
R194, R195. -/
def Obligations.ComparesSetFlagsOnly : Prop :=
  HasForms .cmp [(0xC9, .immM), (0xCD, .abs), (0xCF, .long), (0xC5, .dp), (0xD2, .idp), (0xC7, .ildp),
    (0xDD, .absx), (0xDF, .longx), (0xD9, .absy), (0xD5, .dpx), (0xC1, .idpx), (0xD1, .idpy), (0xD7, .ildpy),
    (0xC3, .sr), (0xD3, .isry)] ∧
  HasForms .cpx [(0xE0, .immX), (0xEC, .abs), (0xE4, .dp)] ∧
  HasForms .cpy [(0xC0, .immX), (0xCC, .abs), (0xC4, .dp)]
  ∧ ∀ s : State,
    (OnOperand .cmp s s.wM fun i b => Answers i s fun t => t = { s with p := t.p }
      ∧ Sets s t ((.c, decide (b.toNat ≤ s.acc.toNat)) :: nz s.wM (wrap s.wM ((s.acc.toNat : Int) - b.toNat))))
    ∧ (OnOperand .cpx s s.wX fun i b => Answers i s fun t => t = { s with p := t.p }
      ∧ Sets s t ((.c, decide (b.toNat ≤ s.xNat)) :: nz s.wX (wrap s.wX ((s.xNat : Int) - b.toNat))))
    ∧ (OnOperand .cpy s s.wX fun i b => Answers i s fun t => t = { s with p := t.p }
      ∧ Sets s t ((.c, decide (b.toNat ≤ s.yNat)) :: nz s.wX (wrap s.wX ((s.yNat : Int) - b.toNat))))

/-- Every form answers a next state: the operand of width m plus or minus one modulo 2^(8w) is written back to
where it came from (B stays; exactly the operand's bytes are stored), N and Z come from the result, C and V
and everything else are as before. Formalises R196, R197. -/
def Obligations.IncDecChangeByOne : Prop :=
  HasForms .inc [(0x1A, .acc), (0xEE, .abs), (0xE6, .dp), (0xFE, .absx), (0xF6, .dpx)] ∧
  HasForms .dec [(0x3A, .acc), (0xCE, .abs), (0xC6, .dp), (0xDE, .absx), (0xD6, .dpx)]
  ∧ ∀ s : State,
    (Answers .incAcc s fun t =>
      AccBecomes s t (wrap s.wM (s.acc.toNat + 1)) ∧ Sets s t (nz s.wM (wrap s.wM (s.acc.toNat + 1))))
    ∧ (Answers .decAcc s fun t => AccBecomes s t (wrap s.wM ((s.acc.toNat : Int) - 1))
      ∧ Sets s t (nz s.wM (wrap s.wM ((s.acc.toNat : Int) - 1))))
    ∧ (OnMemory .inc fun i md => Answers i s fun t =>
      let r := wrap s.wM ((s.load (s.ea md) s.wM).toNat + 1)
      t = { s with mem := t.mem, p := t.p } ∧ Wrote s t (storeWrites (s.ea md) s.wM r) ∧ Sets s t (nz s.wM r))
    ∧ (OnMemory .dec fun i md => Answers i s fun t =>
      let r := wrap s.wM (((s.load (s.ea md) s.wM).toNat : Int) - 1)
      t = { s with mem := t.mem, p := t.p } ∧ Wrote s t (storeWrites (s.ea md) s.wM r) ∧ Sets s t (nz s.wM r))

/-- Each answers a next state: the index register at width x plus or minus one modulo 2^(8w), zero-extended; N
and Z come from the result and nothing else changes. Formalises R198, R199, R200, R201. -/
def Obligations.IndexIncDecChangeByOne : Prop :=
  HasForms .inx [(0xE8, .imp)] ∧ HasForms .iny [(0xC8, .imp)] ∧ HasForms .dex [(0xCA, .imp)]
  ∧ HasForms .dey [(0x88, .imp)]
  ∧ ∀ s : State,
    (Answers .inx s fun t =>
      t = { s with x := wrap s.wX (s.xNat + 1), p := t.p } ∧ Sets s t (nz s.wX (wrap s.wX (s.xNat + 1))))
    ∧ (Answers .iny s fun t =>
      t = { s with y := wrap s.wX (s.yNat + 1), p := t.p } ∧ Sets s t (nz s.wX (wrap s.wX (s.yNat + 1))))
    ∧ (Answers .dex s fun t => t = { s with x := wrap s.wX ((s.xNat : Int) - 1), p := t.p }
      ∧ Sets s t (nz s.wX (wrap s.wX ((s.xNat : Int) - 1))))
    ∧ (Answers .dey s fun t => t = { s with y := wrap s.wX ((s.yNat : Int) - 1), p := t.p }
      ∧ Sets s t (nz s.wX (wrap s.wX ((s.yNat : Int) - 1))))

/-- Every form answers a next state: the accumulator takes the bitwise result at width m, B stays when m = 1, N
and Z come from the result, and nothing else changes. Formalises R220, R221, R222. -/
def Obligations.AndOraEorCombineBits : Prop :=
  HasForms .and [(0x29, .immM), (0x2D, .abs), (0x2F, .long), (0x25, .dp), (0x32, .idp), (0x27, .ildp),
    (0x3D, .absx), (0x3F, .longx), (0x39, .absy), (0x35, .dpx), (0x21, .idpx), (0x31, .idpy), (0x37, .ildpy),
    (0x23, .sr), (0x33, .isry)] ∧
  HasForms .ora [(0x09, .immM), (0x0D, .abs), (0x0F, .long), (0x05, .dp), (0x12, .idp), (0x07, .ildp),
    (0x1D, .absx), (0x1F, .longx), (0x19, .absy), (0x15, .dpx), (0x01, .idpx), (0x11, .idpy), (0x17, .ildpy),
    (0x03, .sr), (0x13, .isry)] ∧
  HasForms .eor [(0x49, .immM), (0x4D, .abs), (0x4F, .long), (0x45, .dp), (0x52, .idp), (0x47, .ildp),
    (0x5D, .absx), (0x5F, .longx), (0x59, .absy), (0x55, .dpx), (0x41, .idpx), (0x51, .idpy), (0x57, .ildpy),
    (0x43, .sr), (0x53, .isry)]
  ∧ ∀ s : State,
    (OnOperand .and s s.wM fun i b => Answers i s fun t =>
      AccBecomes s t (s.acc &&& b) ∧ Sets s t (nz s.wM (s.acc &&& b)))
    ∧ (OnOperand .ora s s.wM fun i b => Answers i s fun t =>
      AccBecomes s t (s.acc ||| b) ∧ Sets s t (nz s.wM (s.acc ||| b)))
    ∧ (OnOperand .eor s s.wM fun i b => Answers i s fun t =>
      AccBecomes s t (s.acc ^^^ b) ∧ Sets s t (nz s.wM (s.acc ^^^ b)))

/-- Every form answers a next state: Z tells whether accumulator and operand have no bit in common; the four
memory forms copy the operand's top bit to N and the next one to V, at width m, and the immediate form
changes Z alone; nothing else changes. Formalises R223. -/
def Obligations.BitTestsMemory : Prop :=
  HasForms .bit [(0x89, .immM), (0x2C, .abs), (0x24, .dp), (0x3C, .absx), (0x34, .dpx)]
  ∧ ∀ s : State,
    (∀ v, Answers (.bitImm v) s fun t => t = { s with p := t.p }
      ∧ Sets s t [(.z, decide (s.acc &&& s.wM.trunc v = 0))])
    ∧ (OnMemory .bit fun i md => Answers i s fun t =>
      let b := s.load (s.ea md) s.wM
      t = { s with p := t.p } ∧ Sets s t [(.z, decide (s.acc &&& b = 0)),
        (.n, decide (b.toNat / 2 ^ (s.wM.bits - 1) % 2 = 1)),
        (.v, decide (b.toNat / 2 ^ (s.wM.bits - 2) % 2 = 1))])

/-- Every form answers a next state: Z tests accumulator and operand before the update, then operand or
accumulator (TSB) or operand and not accumulator (TRB) is stored over the operand at width m; exactly those
bytes and Z change. Formalises R224, R225. -/
def Obligations.TsbTrbTestThenWrite : Prop :=
  HasForms .tsb [(0x0C, .abs), (0x04, .dp)] ∧ HasForms .trb [(0x1C, .abs), (0x14, .dp)]
  ∧ ∀ s : State,
    (OnMemory .tsb fun i md => Answers i s fun t =>
      let b := s.load (s.ea md) s.wM
      t = { s with mem := t.mem, p := t.p } ∧ Wrote s t (storeWrites (s.ea md) s.wM (b ||| s.acc))
      ∧ Sets s t [(.z, decide (s.acc &&& b = 0))])
    ∧ (OnMemory .trb fun i md => Answers i s fun t =>
      let b := s.load (s.ea md) s.wM
      t = { s with mem := t.mem, p := t.p } ∧ Wrote s t (storeWrites (s.ea md) s.wM (b &&& ~~~s.acc))
      ∧ Sets s t [(.z, decide (s.acc &&& b = 0))])

/-- Every form answers a next state: the operand of width m moves by one bit, with zero (ASL, LSR) or the old
carry (ROL, ROR) coming in and the bit that leaves going to C; N and Z come from the result; the accumulator
form keeps B when m = 1, the memory forms store exactly the operand's bytes; nothing else changes.
Formalises R240, R241, R242, R243. -/
def Obligations.ShiftsAndRotatesMoveOneBit : Prop :=
  HasForms .asl [(0x0A, .acc), (0x0E, .abs), (0x06, .dp), (0x1E, .absx), (0x16, .dpx)] ∧
  HasForms .lsr [(0x4A, .acc), (0x4E, .abs), (0x46, .dp), (0x5E, .absx), (0x56, .dpx)] ∧
  HasForms .rol [(0x2A, .acc), (0x2E, .abs), (0x26, .dp), (0x3E, .absx), (0x36, .dpx)] ∧
  HasForms .ror [(0x6A, .acc), (0x6E, .abs), (0x66, .dp), (0x7E, .absx), (0x76, .dpx)]
  ∧ ∀ s : State, ∀ row ∈ [(Mnemonic.asl, Instr.aslAcc, ShiftOp.asl), (.lsr, .lsrAcc, .lsr),
      (.rol, .rolAcc, .rol), (.ror, .rorAcc, .ror)],
    let moved (v : Word) := shiftedNat row.2.2 s.wM.bits (carryNat (s.flag .c)) v.toNat
    (Answers row.2.1 s fun t =>
      let r := BitVec.ofNat 16 (moved s.acc).1
      AccBecomes s t r ∧ Sets s t ((.c, decide ((moved s.acc).2 = 1)) :: nz s.wM r))
    ∧ (OnMemory row.1 fun i md => Answers i s fun t =>
      let v := s.load (s.ea md) s.wM
      let r := BitVec.ofNat 16 (moved v).1
      t = { s with mem := t.mem, p := t.p } ∧ Wrote s t (storeWrites (s.ea md) s.wM r)
      ∧ Sets s t ((.c, decide ((moved v).2 = 1)) :: nz s.wM r))

/-- Each answers a next state that differs in PC alone: PCnext plus the signed 8-bit displacement modulo 2^16
when the condition of the table holds, PCnext otherwise (exec starts with PC at the next instruction).
Instructions: BPL BMI BVC BVS BCC BCS BNE BEQ BRA. Formalises R250, R251, R252, R253, R254, R255, R256,
R257, R258, R259. -/
def Obligations.ShortBranchesAddTheDisplacement : Prop :=
  (∀ row ∈ [(Mnemonic.bpl, (0x10 : Byte)), (.bmi, 0x30), (.bvc, 0x50), (.bvs, 0x70), (.bcc, 0x90),
      (.bcs, 0xB0), (.bne, 0xD0), (.beq, 0xF0), (.bra, 0x80)], HasForms row.1 [(row.2, .rel8)])
  ∧ ∀ (s : State) (o : Byte), ∀ row ∈ [(Instr.bpl o, !s.flag .n), (.bmi o, s.flag .n), (.bvc o, !s.flag .v),
      (.bvs o, s.flag .v), (.bcc o, !s.flag .c), (.bcs o, s.flag .c), (.bne o, !s.flag .z), (.beq o, s.flag .z),
      (.bra o, true)],
    Answers row.1 s fun t => t = { s with pc := t.pc }
      ∧ (t.pc.toNat : Int) = if row.2 then ((s.pc.toNat : Int) + o.toInt) % 2 ^ 16 else (s.pc.toNat : Int)

/-- Each answers a next state that differs in PC (and for JML in PBR) alone: BRL adds the 16-bit displacement to
PCnext; JMP a loads a; JMP (a) reads its pointer in bank $00; JMP (a,x) reads it at a + X in bank PBR; JML
al and JML [a] load PC and PBR from a 24-bit address, given or read in bank $00. All offsets wrap at 16
bits. Formalises R260, R262, R263, R264, R266, R267. -/
def Obligations.JumpsSetThePc : Prop :=
  HasForms .brl [(0x82, .rel16)] ∧ HasForms .jmp [(0x4C, .abs), (0x6C, .ind), (0x7C, .indx)]
  ∧ HasForms .jml [(0x5C, .long), (0xDC, .indl)]
  ∧ ∀ (s : State) (a : Word) (al : Addr),
    (Answers (.brl a) s fun t => t = { s with pc := t.pc } ∧ t.pc.toNat = (s.pc.toNat + a.toNat) % 2 ^ 16)
    ∧ (Answers (.jmpAbs a) s fun t => t = { s with pc := a })
    ∧ (Answers (.jmpInd a) s fun t => t = { s with pc := t.pc } ∧ t.pc.toNat = s.bank0Word a.toNat)
    ∧ (Answers (.jmpIndx a) s fun t => t = { s with pc := t.pc }
      ∧ t.pc.toNat = s.byteAt (s.pbr.toNat * 65536 + (a.toNat + s.xNat) % 2 ^ 16)
        + 256 * s.byteAt (s.pbr.toNat * 65536 + (a.toNat + s.xNat + 1) % 2 ^ 16))
    ∧ (Answers (.jmlLong al) s fun t => t = { s with pc := t.pc, pbr := t.pbr }
      ∧ t.pbr.toNat * 65536 + t.pc.toNat = al.toNat)
    ∧ (Answers (.jmlIndl a) s fun t => t = { s with pc := t.pc, pbr := t.pbr }
      ∧ t.pbr.toNat * 65536 + t.pc.toNat = s.bank0Long a.toNat)

/-- Each answers a next state: the address of its own last byte (PCnext - 1) is pushed high byte first, after
PBR for JSL; JSR a stays in the stack page in emulation mode, the other two count S at 16 bits; PC (and PBR
for JSL) takes the target, the pointer of JSR (a,x) being read in bank PBR after the pushes; exactly the
pushed bytes, S, PC and PBR change. Formalises R285, R286, R287. -/
def Obligations.CallsPushTheReturnAddress : Prop :=
  HasForms .jsr [(0x20, .abs), (0xFC, .indx)] ∧ HasForms .jsl [(0x22, .long)]
  ∧ ∀ (s : State) (a : Word) (al : Addr),
    (Answers (.jsrAbs a) s fun t => t = { s with mem := t.mem, sp := t.sp, pc := a }
      ∧ Pushed s t .page [highByte (s.pc - 1), lowByte (s.pc - 1)])
    ∧ (Answers (.jsrIndx a) s fun t => t = { s with mem := t.mem, sp := t.sp, pc := t.pc }
      ∧ Pushed s t .wide [highByte (s.pc - 1), lowByte (s.pc - 1)]
      ∧ t.pc.toNat = t.byteAt (s.pbr.toNat * 65536 + (a.toNat + s.xNat) % 2 ^ 16)
        + 256 * t.byteAt (s.pbr.toNat * 65536 + (a.toNat + s.xNat + 1) % 2 ^ 16))
    ∧ (Answers (.jsl al) s fun t => t = { s with mem := t.mem, sp := t.sp, pc := t.pc, pbr := t.pbr }
      ∧ Pushed s t .wide [s.pbr, highByte (s.pc - 1), lowByte (s.pc - 1)]
      ∧ t.pbr.toNat * 65536 + t.pc.toNat = al.toNat)

/-- Each answers a next state: PC is the pulled word plus one modulo 2^16, RTL pulls PBR after it, S moves up by
two or three bytes, and nothing else changes; memory is as before. Formalises R288, R289. -/
def Obligations.ReturnsPullTheAddress : Prop :=
  HasForms .rts [(0x60, .imp)] ∧ HasForms .rtl [(0x6B, .imp)]
  ∧ ∀ s : State,
    (Answers .rts s fun t =>
      t = { s with sp := s.stackSlot .page 2, pc := joinBytes (s.stackByte .page 2) (s.stackByte .page 1) + 1 })
    ∧ (Answers .rtl s fun t =>
      t = { s with sp := s.stackSlot .wide 3, pc := joinBytes (s.stackByte .wide 2) (s.stackByte .wide 1) + 1,
                   pbr := s.stackByte .wide 3 })

/-- RTI answers a next state: P is the pulled byte (with bits 5 and 4 kept 1 in emulation mode), PC the next
word without plus one, in native mode PBR the byte after it; a pulled x = 1 clears XH and YH in native mode;
S moves up by three (emulation) or four bytes; nothing else changes. Formalises R292. -/
def Obligations.RtiRestoresStatusAndPc : Prop :=
  HasForms .rti [(0x40, .imp)]
  ∧ ∀ s : State, Answers .rti s fun t =>
    let p := s.stackByte .page 1
    t = { s with
      p := if s.e then p ||| 0x30 else p
      x := if !s.e && p.getLsbD 4 then zeroExtend8 (lowByte s.x) else s.x
      y := if !s.e && p.getLsbD 4 then zeroExtend8 (lowByte s.y) else s.y
      pc := joinBytes (s.stackByte .page 3) (s.stackByte .page 2)
      pbr := if s.e then s.pbr else s.stackByte .page 4
      sp := s.stackSlot .page (if s.e then 3 else 4) }

/-- Each answers a next state: two bytes are pushed, high first, with S counted at 16 bits: the immediate; the
word at (D + d) in bank $00, never wrapping in the page; PCnext plus the displacement modulo 2^16. Exactly
those bytes and S change. Formalises R295, R296, R297. -/
def Obligations.PushEffectiveAddresses : Prop :=
  HasForms .pea [(0xF4, .imm16)] ∧ HasForms .pei [(0xD4, .idp)] ∧ HasForms .per [(0x62, .rel16)]
  ∧ ∀ (s : State) (v : Word) (d : Byte),
    (Answers (.pea v) s fun t => t = { s with mem := t.mem, sp := t.sp }
      ∧ Pushed s t .wide [highByte v, lowByte v])
    ∧ (Answers (.pei d) s fun t => t = { s with mem := t.mem, sp := t.sp }
      ∧ ∃ hi lo, Pushed s t .wide [hi, lo] ∧ lo.toNat + 256 * hi.toNat = s.bank0Word (s.d.toNat + d.toNat))
    ∧ (Answers (.per v) s fun t => t = { s with mem := t.mem, sp := t.sp }
      ∧ ∃ hi lo, Pushed s t .wide [hi, lo] ∧ lo.toNat + 256 * hi.toNat = (s.pc.toNat + v.toNat) % 2 ^ 16)

/-- Each answers a next state: the register is pushed high byte first at its width (m for A, x for X and Y, one
byte for P, DBR and PBR, two for D); exactly those bytes and S change; in a well-formed state with E = 1 the
P byte pushed has bits 5 and 4 set. Formalises R298, R299, R300, R301, R302, R303, R304. -/
def Obligations.PushesStoreARegister : Prop :=
  (∀ row ∈ [(Mnemonic.pha, (0x48 : Byte)), (.php, 0x08), (.phx, 0xDA), (.phy, 0x5A), (.phb, 0x8B), (.phd, 0x0B),
      (.phk, 0x4B)], HasForms row.1 [(row.2, .imp)])
  ∧ ∀ s : State, (∀ row ∈ [(Instr.pha, StackRule.page, pushOrder s.wM s.c), (.phx, .page, pushOrder s.wX s.x),
      (.phy, .page, pushOrder s.wX s.y), (.php, .page, [s.p]), (.phb, .page, [s.dbr]), (.phk, .page, [s.pbr]),
      (.phd, .wide, [highByte s.d, lowByte s.d])],
    Answers row.1 s fun t => t = { s with mem := t.mem, sp := t.sp } ∧ Pushed s t row.2.1 row.2.2)
    ∧ (s.wf = true → s.e = true → s.p &&& 0x30 = 0x30)

/-- Each answers a next state: the register takes the bytes above S at its width (B stays for an 8-bit PLA, X
and Y are zero-extended), N and Z come from the value, S moves up by the bytes pulled, and nothing else
changes; memory is as before. That no other instruction but MVN and MVP writes DBR, which R309 remarks, is
said by OnlyTheseInstructionsWriteARegister. Formalises R306, R307, R308, R309, R310. -/
def Obligations.PullsLoadARegister : Prop :=
  (∀ row ∈ [(Mnemonic.pla, (0x68 : Byte)), (.plx, 0xFA), (.ply, 0x7A), (.plb, 0xAB), (.pld, 0x2B)],
      HasForms row.1 [(row.2, .imp)])
  ∧ ∀ s : State,
    (Answers .pla s fun t =>
      AccBecomes { s with sp := s.stackSlot .page (byteCount s.wM) } t (s.pulled .page s.wM)
      ∧ Sets s t (nz s.wM (s.pulled .page s.wM)))
    ∧ (Answers .plx s fun t =>
      t = { s with sp := s.stackSlot .page (byteCount s.wX), x := s.pulled .page s.wX, p := t.p }
      ∧ Sets s t (nz s.wX (s.pulled .page s.wX)))
    ∧ (Answers .ply s fun t =>
      t = { s with sp := s.stackSlot .page (byteCount s.wX), y := s.pulled .page s.wX, p := t.p }
      ∧ Sets s t (nz s.wX (s.pulled .page s.wX)))
    ∧ (Answers .plb s fun t =>
      t = { s with sp := s.stackSlot .wide 1, dbr := s.stackByte .wide 1, p := t.p }
      ∧ Sets s t (nz .byte (s.pulled .wide .byte)))
    ∧ (Answers .pld s fun t =>
      t = { s with sp := s.stackSlot .wide 2, d := s.pulled .wide .word, p := t.p }
      ∧ Sets s t (nz .word (s.pulled .wide .word)))

/-- PLP answers a next state: P is the pulled byte, in emulation mode with bits 5 and 4 kept 1; in native mode a
pulled x = 1 clears XH and YH; S moves up by one; nothing else changes, E included. Formalises R305. -/
def Obligations.PlpLoadsTheStatus : Prop :=
  HasForms .plp [(0x28, .imp)]
  ∧ ∀ s : State, Answers .plp s fun t =>
    let p := s.stackByte .page 1
    t = { s with
      p := if s.e then p ||| 0x30 else p
      x := if !s.e && p.getLsbD 4 then zeroExtend8 (lowByte s.x) else s.x
      y := if !s.e && p.getLsbD 4 then zeroExtend8 (lowByte s.y) else s.y
      sp := s.stackSlot .page 1 }

/-- Each answers a next state: the destination takes as many low bits of the source as its width has
(zero-extended into an index register, B kept by an 8-bit accumulator, all 16 bits of C into a 16-bit index
whatever m is), N and Z come from the value at the destination's width, and nothing else changes. Formalises
R331, R332, R333, R334, R335, R337, R338. -/
def Obligations.TransfersToAXY : Prop :=
  (∀ row ∈ [(Mnemonic.tax, (0xAA : Byte)), (.tay, 0xA8), (.txa, 0x8A), (.tya, 0x98), (.tsx, 0xBA), (.txy, 0x9B),
      (.tyx, 0xBB)], HasForms row.1 [(row.2, .imp)])
  ∧ ∀ s : State,
    (∀ row ∈ [(Instr.tax, s.c), (.tsx, s.sp), (.tyx, s.y)], Answers row.1 s fun t =>
      t = { s with x := wrap s.wX row.2.toNat, p := t.p } ∧ Sets s t (nz s.wX (wrap s.wX row.2.toNat)))
    ∧ (∀ row ∈ [(Instr.tay, s.c), (.txy, s.x)], Answers row.1 s fun t =>
      t = { s with y := wrap s.wX row.2.toNat, p := t.p } ∧ Sets s t (nz s.wX (wrap s.wX row.2.toNat)))
    ∧ (∀ row ∈ [(Instr.txa, s.x), (.tya, s.y)], Answers row.1 s fun t =>
      AccBecomes s t (wrap s.wM row.2.toNat) ∧ Sets s t (nz s.wM (wrap s.wM row.2.toNat)))

/-- Each answers a next state: 16 bits are copied whatever m and x are, except that SH stays $01 in emulation
mode when S is written; TCD, TDC and TSC set N and Z at 16 bits, TXS and TCS change no flag; nothing else
changes. Formalises R336, R339, R340, R341, R342. -/
def Obligations.TransfersOfSAndD : Prop :=
  (∀ row ∈ [(Mnemonic.txs, (0x9A : Byte)), (.tcd, 0x5B), (.tdc, 0x7B), (.tcs, 0x1B), (.tsc, 0x3B)],
      HasForms row.1 [(row.2, .imp)])
  ∧ ∀ s : State,
    (∀ row ∈ [(Instr.txs, s.x), (.tcs, s.c)], Answers row.1 s fun t =>
      t = { s with sp := if s.e then joinBytes 0x01 (lowByte row.2) else row.2 })
    ∧ (Answers .tcd s fun t => t = { s with d := s.c, p := t.p } ∧ Sets s t (nz .word s.c))
    ∧ (Answers .tdc s fun t => t = { s with c := s.d, p := t.p } ∧ Sets s t (nz .word s.d))
    ∧ (Answers .tsc s fun t => t = { s with c := s.sp, p := t.p } ∧ Sets s t (nz .word s.sp))

/-- XBA answers a next state in which A and B changed places, N and Z are the new A's at 8 bits whatever m is,
and nothing else changed. Formalises R343. -/
def Obligations.XbaExchangesBAndA : Prop :=
  HasForms .xba [(0xEB, .imp)]
  ∧ ∀ s : State, Answers .xba s fun t =>
    t = { s with c := t.c, p := t.p } ∧ lowByte t.c = highByte s.c ∧ highByte t.c = lowByte s.c
    ∧ Sets s t (nz .byte (zeroExtend8 (highByte s.c)))

/-- XCE answers a next state: E takes the old carry and the carry the old E; when the new E is 1, m and x become
1, XH and YH $00 and SH $01; every other flag and register, B, D, DBR and PBR among them, is as before.
Formalises R345. -/
def Obligations.XceExchangesCarryAndE : Prop :=
  HasForms .xce [(0xFB, .imp)]
  ∧ ∀ s : State, Answers .xce s fun t =>
    t = { s with
      e := s.flag .c
      p := t.p
      x := if s.flag .c then zeroExtend8 (lowByte s.x) else s.x
      y := if s.flag .c then zeroExtend8 (lowByte s.y) else s.y
      sp := if s.flag .c then joinBytes 0x01 (lowByte s.sp) else s.sp }
    ∧ Sets s t ((.c, s.e) :: if s.flag .c then [(.m, true), (.x, true)] else [])

/-- For every signature byte each answers the state after interrupt entry with return address PCnext (its own
address plus two): in native mode PBR, then PC high, PC low and P are pushed, with bit 4 of P set in
emulation mode; D is cleared, I set, PBR cleared, and PC read from $FFFE or $FFE6 (BRK), $FFF4 or $FFE4
(COP); nothing else changes. Formalises R360, R361, R411. -/
def Obligations.BrkAndCopEnterTheirHandlers : Prop :=
  HasForms .brk [(0x00, .sig)] ∧ HasForms .cop [(0x02, .sig)]
  ∧ ∀ (s : State) (b : Byte),
    Answers (.brk b) s (Entered .brk (if s.e then 0xFFFE else 0xFFE6) s)
    ∧ Answers (.cop b) s (Entered .cop (if s.e then 0xFFF4 else 0xFFE4) s)

/-- Each answers the state as it is (exec starts with PC at the next instruction): WDM is a two-byte and NOP a
one-byte no-operation. Formalises R365, R368. -/
def Obligations.WdmAndNopDoNothing : Prop :=
  HasForms .wdm [(0x42, .sig)] ∧ HasForms .nop [(0xEA, .imp)]
  ∧ ∀ (s : State) (b : Byte), (Answers (.wdm b) s fun t => t = s) ∧ (Answers .nop s fun t => t = s)

/-- Each answers a next state that differs in run alone: waiting after WAI, stopped after STP. Derived from
R366, R367. -/
def Obligations.WaiAndStpHalt : Prop :=
  HasForms .wai [(0xCB, .imp)] ∧ HasForms .stp [(0xDB, .imp)]
  ∧ ∀ s : State,
    (Answers .wai s fun t => t = { s with run := .waiting }) ∧ (Answers .stp s fun t => t = { s with run := .stopped })

/-- Each answers a next state in which its flag has the value named and every other flag and everything else is
as before, in both modes. Formalises R369, R370, R371, R372, R373, R374, R375. -/
def Obligations.FlagInstructionsChangeOneFlag : Prop :=
  (∀ row ∈ [(Mnemonic.sec, (0x38 : Byte)), (.clc, 0x18), (.sed, 0xF8), (.cld, 0xD8), (.sei, 0x78), (.cli, 0x58),
      (.clv, 0xB8)], HasForms row.1 [(row.2, .imp)])
  ∧ ∀ s : State, ∀ row ∈ [(Instr.sec, Flag.c, true), (.clc, .c, false), (.sed, .d, true), (.cld, .d, false),
      (.sei, .i, true), (.cli, .i, false), (.clv, .v, false)],
    Answers row.1 s fun t => t = { s with p := t.p } ∧ Sets s t [row.2]

/-- Each answers a next state: REP clears and SEP sets every flag whose mask bit is 1 and leaves the others, but
m and x are 1 after REP in emulation mode; where x is 1 after SEP, XH and YH are cleared; nothing else
changes. Formalises R380, R381. -/
def Obligations.RepAndSepChangeTheMaskedFlags : Prop :=
  HasForms .rep [(0xC2, .imm8)] ∧ HasForms .sep [(0xE2, .imm8)]
  ∧ ∀ (s : State) (k : Byte),
    (Answers (.rep k) s fun t => t = { s with p := t.p }
      ∧ ∀ f, t.flag f = if s.e = true ∧ (f = .m ∨ f = .x) then true else s.flag f && !k.getLsbD f.bit)
    ∧ (Answers (.sep k) s fun t =>
      t = { s with
        p := t.p
        x := if t.flag .x then zeroExtend8 (lowByte s.x) else s.x
        y := if t.flag .x then zeroExtend8 (lowByte s.y) else s.y }
      ∧ ∀ f, t.flag f = (s.flag f || k.getLsbD f.bit))

/-- Each answers a next state: the byte at src:X is written to dst:Y, X and Y move by one up (MVN) or down (MVP)
and wrap at width x, C counts down at 16 bits whatever m is, DBR becomes the destination bank, and PC goes
back to the instruction's own address (three bytes before PCnext) unless C was 0; flags and everything else
are as before. Formalises R390, R391. -/
def Obligations.BlockMoveMovesOneByte : Prop :=
  HasForms .mvn [(0x54, .blk)] ∧ HasForms .mvp [(0x44, .blk)]
  ∧ ∀ (s : State) (dst src : Byte), ∀ row ∈ [(Instr.mvn dst src, (1 : Int)), (.mvp dst src, -1)],
    Answers row.1 s fun t =>
      Wrote s t [(blockAddr dst s.wX s.idxY 1 0, s.readByte (blockAddr src s.wX s.idxX 1 0))]
      ∧ t = { s with
        mem := t.mem
        dbr := dst
        x := wrap s.wX (s.xNat + row.2)
        y := wrap s.wX (s.yNat + row.2)
        c := wrap .word ((s.c.toNat : Int) - 1)
        pc := if s.c = 0 then s.pc else s.pc - 3 }

/-- Started with C = n over RAM (the source may be ROM), source and destination not overlapping: after n + 1
executions of the same MVN or MVP, each destination byte is the source byte of the start, every other byte
is as before, C = $FFFF, X and Y have moved by n + 1 at width x, DBR is the destination bank, PC is past the
instruction (and after fewer it is not); P and all else are unchanged. The runs execute the instruction
through exec with PC moved past it, as a step does. Derived from R392. -/
def Obligations.BlockMoveCopiesTheWholeBlock : Prop :=
  ∀ (s : State) (dst src : Byte) (i : Instr) (dir : Int),
    (i = .mvn dst src ∧ dir = 1 ∨ i = .mvp dst src ∧ dir = -1) →
    (∀ j ≤ s.c.toNat, kindAt s.platform.memMap (blockAddr dst s.wX s.idxY dir j).toNat = .ram) →
    (∀ j ≤ s.c.toNat, readsStored (kindAt s.platform.memMap (blockAddr src s.wX s.idxX dir j).toNat) = true) →
    (∀ j ≤ s.c.toNat, ∀ k ≤ s.c.toNat, blockAddr dst s.wX s.idxY dir j ≠ blockAddr src s.wX s.idxX dir k) →
    (∀ n ≤ s.c.toNat, ∃ u, runSame i n s = some u ∧ u.pc = s.pc)
    ∧ ∃ t, runSame i (s.c.toNat + 1) s = some t
      ∧ (∀ j ≤ s.c.toNat, t.readByte (blockAddr dst s.wX s.idxY dir j) = s.readByte (blockAddr src s.wX s.idxX dir j))
      ∧ (∀ a, (∀ j ≤ s.c.toNat, a ≠ blockAddr dst s.wX s.idxY dir j) → t.readByte a = s.readByte a)
      ∧ t = { s with
        mem := t.mem
        c := 0xFFFF
        x := wrap s.wX (s.xNat + dir * (s.c.toNat + 1))
        y := wrap s.wX (s.yNat + dir * (s.c.toNat + 1))
        dbr := dst
        pc := s.pc + 3 }

/-- If exec changed D, the instruction is TCD or PLD; DBR: PLB, MVN or MVP; PBR: JML, JSL, RTL, RTI, BRK or COP;
E: XCE; C: one of R50's list for A; X and Y: one of R50's lists or an instruction that sets x (SEP, PLP,
RTI, XCE, by R23). Derived from R26, R27, R28, R40, R50, R23. -/
def Obligations.OnlyTheseInstructionsWriteARegister : Prop :=
  ∀ (i : Instr) (s t : State), exec i s = .next t →
    (t.d = s.d ∨ i.mnemonic ∈ [.tcd, .pld])
    ∧ (t.dbr = s.dbr ∨ i.mnemonic ∈ [.plb, .mvn, .mvp])
    ∧ (t.pbr = s.pbr ∨ i.mnemonic ∈ [.jml, .jsl, .rtl, .rti, .brk, .cop])
    ∧ (t.e = s.e ∨ i.mnemonic = .xce)
    ∧ (t.c = s.c ∨ i.mnemonic ∈ [.lda, .adc, .sbc, .and, .ora, .eor, .asl, .lsr, .rol, .ror, .inc, .dec, .pla,
        .txa, .tya, .tdc, .tsc, .xba, .mvn, .mvp])
    ∧ (t.x = s.x ∨ i.mnemonic ∈ [.ldx, .inx, .dex, .plx, .tax, .tsx, .tyx, .mvn, .mvp, .sep, .plp, .rti, .xce])
    ∧ (t.y = s.y ∨ i.mnemonic ∈ [.ldy, .iny, .dey, .ply, .tay, .txy, .mvn, .mvp, .sep, .plp, .rti, .xce])

/-- For every instruction and state: a byte of memory outside the addresses the instruction stores to (computed
with the effective address, the stack slots or the block-move destination it uses) reads after exec as it
read before; an instruction that stores nothing changes no byte. Derived from R80, R283, R173, R196, R224,
R240, R390, R410. -/
def Obligations.MemoryChangesOnlyWhereStored : Prop :=
  ∀ (i : Instr) (s t : State), exec i s = .next t → ∀ a : Addr, a ∉ storedAddrs i s → t.readByte a = s.readByte a

/-- exec never changes nmi_pending, irq_line, abort_req, reset_req, the schedule, the platform or the draw
counter (the last three are the model's, log 3 to 5, 9 and 10); it changes run only for WAI and STP. A step
never changes the platform. Derived from R45, R402, R5. -/
def Obligations.InstructionsLeaveTheEnvironmentAlone : Prop :=
  (∀ (i : Instr) (s t : State), exec i s = .next t →
    (t.nmiPending = s.nmiPending ∧ t.irqLine = s.irqLine ∧ t.abortReq = s.abortReq ∧ t.resetReq = s.resetReq
      ∧ t.schedule = s.schedule ∧ t.platform = s.platform ∧ t.draws = s.draws)
    ∧ (t.run = s.run ∨ i.mnemonic ∈ [.wai, .stp]))
  ∧ ∀ s t : State, step s = .next t → t.platform = s.platform ∧ t.schedule = s.schedule.tail

/-- For every instruction but the branches, jumps, calls, returns, BRK, COP and the block moves, exec leaves PC
(already at the next instruction) and PBR as they are; and every instruction but JML, JSL, RTL, RTI, BRK and
COP leaves PBR. Derived from R30, R265. -/
def Obligations.OnlyTransfersMoveThePc : Prop :=
  ∀ (i : Instr) (s t : State), exec i s = .next t →
    (i.mnemonic ∉ [.bcc, .bcs, .beq, .bne, .bmi, .bpl, .bvc, .bvs, .bra, .brl, .jmp, .jml, .jsr, .jsl, .rts, .rtl,
        .rti, .brk, .cop, .mvn, .mvp] → t.pc = s.pc ∧ t.pbr = s.pbr)
    ∧ (i.mnemonic ∉ [.jml, .jsl, .rtl, .rti, .brk, .cop] → t.pbr = s.pbr)

/-- When reset_req is asserted at the check (and the platform does not refuse the state), the step answers: E =
1, m = x = I = 1, D flag 0, XH = YH = $00, SH = $01, D = $0000, DBR = PBR = $00, running, no NMI or abort
pending, PC from $00FFFC/D, memory unchanged, nothing pushed; A, B, XL, YL, SL, N, V, Z and C are free
values about which nothing is stated. The rule's own part is the register values, the vector, memory and
that nothing is pushed. The rest of the equation is the model's choice: the inputs are taken from the
schedule first (log 9), the draw counter goes up by one (log 10), and abort_req is withdrawn whatever
HAS_ABORT is, where R450 has that for a platform with ABORT (log 3). Derived from R450, R404. -/
def Obligations.ResetStepReinitialises : Prop :=
  ∀ s : State, s.pollInputs.resetReq = true → s.pollInputs.emuRefusesState = false →
    StepAnswers s fun t =>
      t = { s.pollInputs with
        e := true, p := t.p, c := t.c, x := t.x, y := t.y, sp := t.sp, d := 0, dbr := 0, pbr := 0,
        run := .running, nmiPending := false, abortReq := false, pc := t.pc, draws := s.draws + 1 }
      ∧ t.flag .m = true ∧ t.flag .x = true ∧ t.flag .i = true ∧ t.flag .d = false
      ∧ highByte t.x = 0 ∧ highByte t.y = 0 ∧ highByte t.sp = 0x01
      ∧ t.pc.toNat = s.byteAt 0x00FFFC + 256 * s.byteAt 0x00FFFD

/-- With no reset asserted, not stopped, and the state not refused: a pending NMI is taken first, and else an
asserted IRQ with I = 0, from running and from waiting alike; the step is the entry of R410 with the
interrupted PC as return address, bit 4 of the pushed P clear in emulation mode, through $FFFA or $FFEA
(NMI), $FFFE or $FFEE (IRQ), and leaves the machine running; NMI entry clears nmi_pending. That the inputs
come from the schedule (log 9) and that a step advances the draw counter (log 10) is the model's choice.
Derived from R404, R410, R400, R411, R430. -/
def Obligations.HardwareInterruptsAreTaken : Prop :=
  ∀ s : State, s.pollInputs.resetReq = false → s.run ≠ .stopped → s.pollInputs.emuRefusesState = false →
    (s.pollInputs.nmiPending = true → StepAnswers s fun t => ∃ w,
      Entered .nmi (if s.e then 0xFFFA else 0xFFEA) { s.pollInputs with run := .running } w
      ∧ EndsStep s w t)
    ∧ (s.pollInputs.nmiPending = false → s.pollInputs.irqLine = true → s.flag .i = false →
      StepAnswers s fun t => ∃ w,
        Entered .irq (if s.e then 0xFFFE else 0xFFEE) { s.pollInputs with run := .running } w
        ∧ EndsStep s w t)

/-- With no reset asserted, in a state that meets the mode invariant and is not refused: a stopped machine only
takes in its inputs, whatever interrupts come; a waiting one with no NMI pending and no IRQ does the same,
and with an IRQ while I = 1 it goes back to running and enters no handler. That the inputs come from the
schedule is the model's choice (log 9). Derived from R404, R367, R430, R366. -/
def Obligations.StoppedAndWaitingMachines : Prop :=
  ∀ s : State, s.modeOk = true → s.pollInputs.resetReq = false → s.pollInputs.emuRefusesState = false →
    (s.run = .stopped → step s = .next s.pollInputs)
    ∧ (s.run = .waiting → s.pollInputs.nmiPending = false →
      (s.pollInputs.irqLine = false → step s = .next s.pollInputs)
      ∧ (s.pollInputs.irqLine = true → s.flag .i = true → step s = .next { s.pollInputs with run := .running }))

/-- On a platform with ABORT, running, with abort_req asserted, no reset, no NMI, no IRQ that is taken, and
(native mode or EMU_EXT = chip): the step is the ABORT entry with return address PC, through $FFF8 or $FFE8,
abort_req withdrawn; no register, flag or byte changes on the instruction's account. That the inputs come
from the schedule (log 9) and that a step advances the draw counter (log 10) is the model's choice. Derived
from R420, R404, R400. -/
def Obligations.AbortSuppressesTheInstruction : Prop :=
  ∀ s : State, s.pollInputs.platform.hasAbort = true → s.pollInputs.abortReq = true → s.run = .running →
    s.pollInputs.resetReq = false → s.pollInputs.nmiPending = false →
    (s.pollInputs.irqLine = true → s.flag .i = true) → s.pollInputs.emuChecked = false →
    StepAnswers s fun t => ∃ w,
      Entered .abort (if s.e then 0xFFF8 else 0xFFE8) { s.pollInputs with abortReq := false } w ∧ EndsStep s w t

/-- On a platform with EMU_EXT = refuse and E = 1 at the check: a state that is not legacy-clean is refused; in
a legacy-clean one the step is refused exactly when it would abort an instruction or would execute an opcode
of EXT816 or a data access at an address outside bank $00. With E = 0 nothing is refused. That the inputs
come from the schedule is the model's choice (log 9). Derived from R6, R43, R109, R163, R420. -/
def Obligations.EmuExtRefusesWhereTheSourceDenies : Prop :=
  ∀ s : State, s.platform.emuExt = .refuse →
    (s.e = false → ∃ t, step s = .next t)
    ∧ (s.e = true → ¬ (s.d = 0 ∧ s.dbr = 0 ∧ s.pbr = 0) → step s = .refused .emuExt)
    ∧ (s.e = true → s.d = 0 ∧ s.dbr = 0 ∧ s.pbr = 0 →
      (step s = .refused .emuExt ↔ s.pollInputs.check = .abort ∨ s.pollInputs.check = .execute ∧
        ∃ i, s.pollInputs.fetchInstr = .ok i ∧ (ext816 i.opcode = true ∨
          ∃ md, i.operand = .data md ∧ 65536 ≤ (s.pollInputs.ea md).first.toNat)))

/-- From every well-formed state whose stack frame lies in RAM, entering any interrupt and executing RTI at once
gives the state back: P, PC, S, A, X, Y, D, DBR and E as before, PBR as before in native mode and $00 in
emulation mode (where it is not saved); only the frame's bytes in memory, and nmi_pending for an NMI,
differ. Derived from R410, R425, R292, R46. -/
def Obligations.RtiUndoesInterruptEntry : Prop :=
  ∀ (s : State) (k : IntKind), s.wf = true →
    (∀ n < 4, kindAt s.platform.memMap (joinAddr 0 (s.stackSlot .page (-BitVec.ofNat 16 n))).toNat = .ram) →
    Answers .rti (s.enter k) fun t =>
      t = { s with mem := (s.enter k).mem, pbr := if s.e then 0 else s.pbr,
                   nmiPending := if k = .nmi then false else s.nmiPending }

/-- With the frame's bytes in RAM: RTS right after JSR a, in either mode with SH = $01 in emulation mode, and in
native mode RTS right after JSR (a,x) and RTL right after JSL, give back PC, PBR and S; nothing but the
frame's bytes differs. Derived from R290, R285, R286, R287, R288, R289. -/
def Obligations.ReturnUndoesCall : Prop :=
  ∀ (s t : State) (a : Word) (al : Addr),
    (∀ n < 3, kindAt s.platform.memMap (joinAddr 0 (s.stackSlot .page (-BitVec.ofNat 16 n))).toNat = .ram) →
    s.modeOk = true →
    (exec (.jsrAbs a) s = .next t → Answers .rts t fun u => u = { s with mem := t.mem })
    ∧ (s.e = false → exec (.jsrIndx a) s = .next t → Answers .rts t fun u => u = { s with mem := t.mem })
    ∧ (s.e = false → exec (.jsl al) s = .next t → Answers .rtl t fun u => u = { s with mem := t.mem })

/-- A write of one byte to RAM is what a read of that address then gives; a write to ROM, I/O or an unmapped
address changes nothing the model holds (log 5); no write is seen at another address. Derived from R79, R9,
R70. -/
def Obligations.RamReadsTheLastWrite : Prop :=
  ∀ (s : State) (a k : Addr) (v : Byte),
    (kindAt s.platform.memMap a.toNat = .ram → (s.writeByte a v).readByte a = v)
    ∧ (kindAt s.platform.memMap a.toNat ≠ .ram → s.writeByte a v = s)
    ∧ (k ≠ a → (s.writeByte a v).readByte k = s.readByte k)
end

