-- ==== Sys2Proof/Laws/State.lean ====
section
/-! SUPPORT. One lemma per field an update leaves alone: reading that field after the update gives what it gave
before. -/

namespace Sys2Proof.Machine

variable (s : State)

@[simp] theorem State.writeByte_c (a : Addr) (v : Byte) : (s.writeByte a v).c = s.c := rfl
@[simp] theorem State.writeByte_x (a : Addr) (v : Byte) : (s.writeByte a v).x = s.x := rfl
@[simp] theorem State.writeByte_y (a : Addr) (v : Byte) : (s.writeByte a v).y = s.y := rfl
@[simp] theorem State.writeByte_sp (a : Addr) (v : Byte) : (s.writeByte a v).sp = s.sp := rfl
@[simp] theorem State.writeByte_d (a : Addr) (v : Byte) : (s.writeByte a v).d = s.d := rfl
@[simp] theorem State.writeByte_dbr (a : Addr) (v : Byte) : (s.writeByte a v).dbr = s.dbr := rfl
@[simp] theorem State.writeByte_pbr (a : Addr) (v : Byte) : (s.writeByte a v).pbr = s.pbr := rfl
@[simp] theorem State.writeByte_pc (a : Addr) (v : Byte) : (s.writeByte a v).pc = s.pc := rfl
@[simp] theorem State.writeByte_p (a : Addr) (v : Byte) : (s.writeByte a v).p = s.p := rfl
@[simp] theorem State.writeByte_e (a : Addr) (v : Byte) : (s.writeByte a v).e = s.e := rfl
@[simp] theorem State.writeByte_run (a : Addr) (v : Byte) : (s.writeByte a v).run = s.run := rfl
@[simp] theorem State.writeByte_nmiPending (a : Addr) (v : Byte) : (s.writeByte a v).nmiPending = s.nmiPending :=
  rfl
@[simp] theorem State.writeByte_irqLine (a : Addr) (v : Byte) : (s.writeByte a v).irqLine = s.irqLine := rfl
@[simp] theorem State.writeByte_abortReq (a : Addr) (v : Byte) : (s.writeByte a v).abortReq = s.abortReq :=
  rfl
@[simp] theorem State.writeByte_resetReq (a : Addr) (v : Byte) : (s.writeByte a v).resetReq = s.resetReq :=
  rfl
@[simp] theorem State.writeByte_schedule (a : Addr) (v : Byte) : (s.writeByte a v).schedule = s.schedule :=
  rfl
@[simp] theorem State.writeByte_platform (a : Addr) (v : Byte) : (s.writeByte a v).platform = s.platform :=
  rfl
@[simp] theorem State.writeByte_draws (a : Addr) (v : Byte) : (s.writeByte a v).draws = s.draws := rfl

@[simp] theorem State.store_c (ea : Ea) (w : Width) (v : Word) : (s.store ea w v).c = s.c :=
  by cases w <;> rfl
@[simp] theorem State.store_x (ea : Ea) (w : Width) (v : Word) : (s.store ea w v).x = s.x :=
  by cases w <;> rfl
@[simp] theorem State.store_y (ea : Ea) (w : Width) (v : Word) : (s.store ea w v).y = s.y :=
  by cases w <;> rfl
@[simp] theorem State.store_sp (ea : Ea) (w : Width) (v : Word) : (s.store ea w v).sp = s.sp :=
  by cases w <;> rfl
@[simp] theorem State.store_d (ea : Ea) (w : Width) (v : Word) : (s.store ea w v).d = s.d :=
  by cases w <;> rfl
@[simp] theorem State.store_dbr (ea : Ea) (w : Width) (v : Word) : (s.store ea w v).dbr = s.dbr :=
  by cases w <;> rfl
@[simp] theorem State.store_pbr (ea : Ea) (w : Width) (v : Word) : (s.store ea w v).pbr = s.pbr :=
  by cases w <;> rfl
@[simp] theorem State.store_pc (ea : Ea) (w : Width) (v : Word) : (s.store ea w v).pc = s.pc :=
  by cases w <;> rfl
@[simp] theorem State.store_p (ea : Ea) (w : Width) (v : Word) : (s.store ea w v).p = s.p :=
  by cases w <;> rfl
@[simp] theorem State.store_e (ea : Ea) (w : Width) (v : Word) : (s.store ea w v).e = s.e :=
  by cases w <;> rfl
@[simp] theorem State.store_run (ea : Ea) (w : Width) (v : Word) : (s.store ea w v).run = s.run :=
  by cases w <;> rfl
@[simp] theorem State.store_nmiPending (ea : Ea) (w : Width) (v : Word) : (s.store ea w v).nmiPending = s.nmiPending :=
  by cases w <;> rfl
@[simp] theorem State.store_irqLine (ea : Ea) (w : Width) (v : Word) : (s.store ea w v).irqLine = s.irqLine :=
  by cases w <;> rfl
@[simp] theorem State.store_abortReq (ea : Ea) (w : Width) (v : Word) : (s.store ea w v).abortReq = s.abortReq :=
  by cases w <;> rfl
@[simp] theorem State.store_resetReq (ea : Ea) (w : Width) (v : Word) : (s.store ea w v).resetReq = s.resetReq :=
  by cases w <;> rfl
@[simp] theorem State.store_schedule (ea : Ea) (w : Width) (v : Word) : (s.store ea w v).schedule = s.schedule :=
  by cases w <;> rfl
@[simp] theorem State.store_platform (ea : Ea) (w : Width) (v : Word) : (s.store ea w v).platform = s.platform :=
  by cases w <;> rfl
@[simp] theorem State.store_draws (ea : Ea) (w : Width) (v : Word) : (s.store ea w v).draws = s.draws :=
  by cases w <;> rfl

@[simp] theorem State.setFlag_c (f : Flag) (b : Bool) : (s.setFlag f b).c = s.c := rfl
@[simp] theorem State.setFlag_x (f : Flag) (b : Bool) : (s.setFlag f b).x = s.x := rfl
@[simp] theorem State.setFlag_y (f : Flag) (b : Bool) : (s.setFlag f b).y = s.y := rfl
@[simp] theorem State.setFlag_sp (f : Flag) (b : Bool) : (s.setFlag f b).sp = s.sp := rfl
@[simp] theorem State.setFlag_d (f : Flag) (b : Bool) : (s.setFlag f b).d = s.d := rfl
@[simp] theorem State.setFlag_dbr (f : Flag) (b : Bool) : (s.setFlag f b).dbr = s.dbr := rfl
@[simp] theorem State.setFlag_pbr (f : Flag) (b : Bool) : (s.setFlag f b).pbr = s.pbr := rfl
@[simp] theorem State.setFlag_pc (f : Flag) (b : Bool) : (s.setFlag f b).pc = s.pc := rfl
@[simp] theorem State.setFlag_e (f : Flag) (b : Bool) : (s.setFlag f b).e = s.e := rfl
@[simp] theorem State.setFlag_run (f : Flag) (b : Bool) : (s.setFlag f b).run = s.run := rfl
@[simp] theorem State.setFlag_nmiPending (f : Flag) (b : Bool) : (s.setFlag f b).nmiPending = s.nmiPending :=
  rfl
@[simp] theorem State.setFlag_irqLine (f : Flag) (b : Bool) : (s.setFlag f b).irqLine = s.irqLine := rfl
@[simp] theorem State.setFlag_abortReq (f : Flag) (b : Bool) : (s.setFlag f b).abortReq = s.abortReq := rfl
@[simp] theorem State.setFlag_resetReq (f : Flag) (b : Bool) : (s.setFlag f b).resetReq = s.resetReq := rfl
@[simp] theorem State.setFlag_schedule (f : Flag) (b : Bool) : (s.setFlag f b).schedule = s.schedule := rfl
@[simp] theorem State.setFlag_platform (f : Flag) (b : Bool) : (s.setFlag f b).platform = s.platform := rfl
@[simp] theorem State.setFlag_mem (f : Flag) (b : Bool) : (s.setFlag f b).mem = s.mem := rfl
@[simp] theorem State.setFlag_draws (f : Flag) (b : Bool) : (s.setFlag f b).draws = s.draws := rfl

@[simp] theorem State.setNZ_c (w : Width) (v : Word) : (s.setNZ w v).c = s.c := rfl
@[simp] theorem State.setNZ_x (w : Width) (v : Word) : (s.setNZ w v).x = s.x := rfl
@[simp] theorem State.setNZ_y (w : Width) (v : Word) : (s.setNZ w v).y = s.y := rfl
@[simp] theorem State.setNZ_sp (w : Width) (v : Word) : (s.setNZ w v).sp = s.sp := rfl
@[simp] theorem State.setNZ_d (w : Width) (v : Word) : (s.setNZ w v).d = s.d := rfl
@[simp] theorem State.setNZ_dbr (w : Width) (v : Word) : (s.setNZ w v).dbr = s.dbr := rfl
@[simp] theorem State.setNZ_pbr (w : Width) (v : Word) : (s.setNZ w v).pbr = s.pbr := rfl
@[simp] theorem State.setNZ_pc (w : Width) (v : Word) : (s.setNZ w v).pc = s.pc := rfl
@[simp] theorem State.setNZ_e (w : Width) (v : Word) : (s.setNZ w v).e = s.e := rfl
@[simp] theorem State.setNZ_run (w : Width) (v : Word) : (s.setNZ w v).run = s.run := rfl
@[simp] theorem State.setNZ_nmiPending (w : Width) (v : Word) : (s.setNZ w v).nmiPending = s.nmiPending :=
  rfl
@[simp] theorem State.setNZ_irqLine (w : Width) (v : Word) : (s.setNZ w v).irqLine = s.irqLine := rfl
@[simp] theorem State.setNZ_abortReq (w : Width) (v : Word) : (s.setNZ w v).abortReq = s.abortReq := rfl
@[simp] theorem State.setNZ_resetReq (w : Width) (v : Word) : (s.setNZ w v).resetReq = s.resetReq := rfl
@[simp] theorem State.setNZ_schedule (w : Width) (v : Word) : (s.setNZ w v).schedule = s.schedule := rfl
@[simp] theorem State.setNZ_platform (w : Width) (v : Word) : (s.setNZ w v).platform = s.platform := rfl
@[simp] theorem State.setNZ_mem (w : Width) (v : Word) : (s.setNZ w v).mem = s.mem := rfl
@[simp] theorem State.setNZ_draws (w : Width) (v : Word) : (s.setNZ w v).draws = s.draws := rfl

@[simp] theorem State.setAcc_x (v : Word) : (s.setAcc v).x = s.x := rfl
@[simp] theorem State.setAcc_y (v : Word) : (s.setAcc v).y = s.y := rfl
@[simp] theorem State.setAcc_sp (v : Word) : (s.setAcc v).sp = s.sp := rfl
@[simp] theorem State.setAcc_d (v : Word) : (s.setAcc v).d = s.d := rfl
@[simp] theorem State.setAcc_dbr (v : Word) : (s.setAcc v).dbr = s.dbr := rfl
@[simp] theorem State.setAcc_pbr (v : Word) : (s.setAcc v).pbr = s.pbr := rfl
@[simp] theorem State.setAcc_pc (v : Word) : (s.setAcc v).pc = s.pc := rfl
@[simp] theorem State.setAcc_p (v : Word) : (s.setAcc v).p = s.p := rfl
@[simp] theorem State.setAcc_e (v : Word) : (s.setAcc v).e = s.e := rfl
@[simp] theorem State.setAcc_run (v : Word) : (s.setAcc v).run = s.run := rfl
@[simp] theorem State.setAcc_nmiPending (v : Word) : (s.setAcc v).nmiPending = s.nmiPending := rfl
@[simp] theorem State.setAcc_irqLine (v : Word) : (s.setAcc v).irqLine = s.irqLine := rfl
@[simp] theorem State.setAcc_abortReq (v : Word) : (s.setAcc v).abortReq = s.abortReq := rfl
@[simp] theorem State.setAcc_resetReq (v : Word) : (s.setAcc v).resetReq = s.resetReq := rfl
@[simp] theorem State.setAcc_schedule (v : Word) : (s.setAcc v).schedule = s.schedule := rfl
@[simp] theorem State.setAcc_platform (v : Word) : (s.setAcc v).platform = s.platform := rfl
@[simp] theorem State.setAcc_mem (v : Word) : (s.setAcc v).mem = s.mem := rfl
@[simp] theorem State.setAcc_draws (v : Word) : (s.setAcc v).draws = s.draws := rfl

@[simp] theorem State.setX_c (v : Word) : (s.setX v).c = s.c := rfl
@[simp] theorem State.setX_y (v : Word) : (s.setX v).y = s.y := rfl
@[simp] theorem State.setX_sp (v : Word) : (s.setX v).sp = s.sp := rfl
@[simp] theorem State.setX_d (v : Word) : (s.setX v).d = s.d := rfl
@[simp] theorem State.setX_dbr (v : Word) : (s.setX v).dbr = s.dbr := rfl
@[simp] theorem State.setX_pbr (v : Word) : (s.setX v).pbr = s.pbr := rfl
@[simp] theorem State.setX_pc (v : Word) : (s.setX v).pc = s.pc := rfl
@[simp] theorem State.setX_p (v : Word) : (s.setX v).p = s.p := rfl
@[simp] theorem State.setX_e (v : Word) : (s.setX v).e = s.e := rfl
@[simp] theorem State.setX_run (v : Word) : (s.setX v).run = s.run := rfl
@[simp] theorem State.setX_nmiPending (v : Word) : (s.setX v).nmiPending = s.nmiPending := rfl
@[simp] theorem State.setX_irqLine (v : Word) : (s.setX v).irqLine = s.irqLine := rfl
@[simp] theorem State.setX_abortReq (v : Word) : (s.setX v).abortReq = s.abortReq := rfl
@[simp] theorem State.setX_resetReq (v : Word) : (s.setX v).resetReq = s.resetReq := rfl
@[simp] theorem State.setX_schedule (v : Word) : (s.setX v).schedule = s.schedule := rfl
@[simp] theorem State.setX_platform (v : Word) : (s.setX v).platform = s.platform := rfl
@[simp] theorem State.setX_mem (v : Word) : (s.setX v).mem = s.mem := rfl
@[simp] theorem State.setX_draws (v : Word) : (s.setX v).draws = s.draws := rfl

@[simp] theorem State.setY_c (v : Word) : (s.setY v).c = s.c := rfl
@[simp] theorem State.setY_x (v : Word) : (s.setY v).x = s.x := rfl
@[simp] theorem State.setY_sp (v : Word) : (s.setY v).sp = s.sp := rfl
@[simp] theorem State.setY_d (v : Word) : (s.setY v).d = s.d := rfl
@[simp] theorem State.setY_dbr (v : Word) : (s.setY v).dbr = s.dbr := rfl
@[simp] theorem State.setY_pbr (v : Word) : (s.setY v).pbr = s.pbr := rfl
@[simp] theorem State.setY_pc (v : Word) : (s.setY v).pc = s.pc := rfl
@[simp] theorem State.setY_p (v : Word) : (s.setY v).p = s.p := rfl
@[simp] theorem State.setY_e (v : Word) : (s.setY v).e = s.e := rfl
@[simp] theorem State.setY_run (v : Word) : (s.setY v).run = s.run := rfl
@[simp] theorem State.setY_nmiPending (v : Word) : (s.setY v).nmiPending = s.nmiPending := rfl
@[simp] theorem State.setY_irqLine (v : Word) : (s.setY v).irqLine = s.irqLine := rfl
@[simp] theorem State.setY_abortReq (v : Word) : (s.setY v).abortReq = s.abortReq := rfl
@[simp] theorem State.setY_resetReq (v : Word) : (s.setY v).resetReq = s.resetReq := rfl
@[simp] theorem State.setY_schedule (v : Word) : (s.setY v).schedule = s.schedule := rfl
@[simp] theorem State.setY_platform (v : Word) : (s.setY v).platform = s.platform := rfl
@[simp] theorem State.setY_mem (v : Word) : (s.setY v).mem = s.mem := rfl
@[simp] theorem State.setY_draws (v : Word) : (s.setY v).draws = s.draws := rfl

@[simp] theorem State.writeP_c (b : Byte) : (s.writeP b).c = s.c := rfl
@[simp] theorem State.writeP_sp (b : Byte) : (s.writeP b).sp = s.sp := rfl
@[simp] theorem State.writeP_d (b : Byte) : (s.writeP b).d = s.d := rfl
@[simp] theorem State.writeP_dbr (b : Byte) : (s.writeP b).dbr = s.dbr := rfl
@[simp] theorem State.writeP_pbr (b : Byte) : (s.writeP b).pbr = s.pbr := rfl
@[simp] theorem State.writeP_pc (b : Byte) : (s.writeP b).pc = s.pc := rfl
@[simp] theorem State.writeP_e (b : Byte) : (s.writeP b).e = s.e := rfl
@[simp] theorem State.writeP_run (b : Byte) : (s.writeP b).run = s.run := rfl
@[simp] theorem State.writeP_nmiPending (b : Byte) : (s.writeP b).nmiPending = s.nmiPending := rfl
@[simp] theorem State.writeP_irqLine (b : Byte) : (s.writeP b).irqLine = s.irqLine := rfl
@[simp] theorem State.writeP_abortReq (b : Byte) : (s.writeP b).abortReq = s.abortReq := rfl
@[simp] theorem State.writeP_resetReq (b : Byte) : (s.writeP b).resetReq = s.resetReq := rfl
@[simp] theorem State.writeP_schedule (b : Byte) : (s.writeP b).schedule = s.schedule := rfl
@[simp] theorem State.writeP_platform (b : Byte) : (s.writeP b).platform = s.platform := rfl
@[simp] theorem State.writeP_mem (b : Byte) : (s.writeP b).mem = s.mem := rfl
@[simp] theorem State.writeP_draws (b : Byte) : (s.writeP b).draws = s.draws := rfl

@[simp] theorem State.pulledP_c (b : Byte) : (s.pulledP b).c = s.c := by unfold State.pulledP; split <;> rfl
@[simp] theorem State.pulledP_sp (b : Byte) : (s.pulledP b).sp = s.sp :=
  by unfold State.pulledP; split <;> rfl
@[simp] theorem State.pulledP_d (b : Byte) : (s.pulledP b).d = s.d := by unfold State.pulledP; split <;> rfl
@[simp] theorem State.pulledP_dbr (b : Byte) : (s.pulledP b).dbr = s.dbr :=
  by unfold State.pulledP; split <;> rfl
@[simp] theorem State.pulledP_pbr (b : Byte) : (s.pulledP b).pbr = s.pbr :=
  by unfold State.pulledP; split <;> rfl
@[simp] theorem State.pulledP_pc (b : Byte) : (s.pulledP b).pc = s.pc :=
  by unfold State.pulledP; split <;> rfl
@[simp] theorem State.pulledP_e (b : Byte) : (s.pulledP b).e = s.e := by unfold State.pulledP; split <;> rfl
@[simp] theorem State.pulledP_run (b : Byte) : (s.pulledP b).run = s.run :=
  by unfold State.pulledP; split <;> rfl
@[simp] theorem State.pulledP_nmiPending (b : Byte) : (s.pulledP b).nmiPending = s.nmiPending :=
  by unfold State.pulledP; split <;> rfl
@[simp] theorem State.pulledP_irqLine (b : Byte) : (s.pulledP b).irqLine = s.irqLine :=
  by unfold State.pulledP; split <;> rfl
@[simp] theorem State.pulledP_abortReq (b : Byte) : (s.pulledP b).abortReq = s.abortReq :=
  by unfold State.pulledP; split <;> rfl
@[simp] theorem State.pulledP_resetReq (b : Byte) : (s.pulledP b).resetReq = s.resetReq :=
  by unfold State.pulledP; split <;> rfl
@[simp] theorem State.pulledP_schedule (b : Byte) : (s.pulledP b).schedule = s.schedule :=
  by unfold State.pulledP; split <;> rfl
@[simp] theorem State.pulledP_platform (b : Byte) : (s.pulledP b).platform = s.platform :=
  by unfold State.pulledP; split <;> rfl
@[simp] theorem State.pulledP_mem (b : Byte) : (s.pulledP b).mem = s.mem :=
  by unfold State.pulledP; split <;> rfl
@[simp] theorem State.pulledP_draws (b : Byte) : (s.pulledP b).draws = s.draws :=
  by unfold State.pulledP; split <;> rfl

@[simp] theorem State.setSp_c (v : Word) : (s.setSp v).c = s.c := rfl
@[simp] theorem State.setSp_x (v : Word) : (s.setSp v).x = s.x := rfl
@[simp] theorem State.setSp_y (v : Word) : (s.setSp v).y = s.y := rfl
@[simp] theorem State.setSp_d (v : Word) : (s.setSp v).d = s.d := rfl
@[simp] theorem State.setSp_dbr (v : Word) : (s.setSp v).dbr = s.dbr := rfl
@[simp] theorem State.setSp_pbr (v : Word) : (s.setSp v).pbr = s.pbr := rfl
@[simp] theorem State.setSp_pc (v : Word) : (s.setSp v).pc = s.pc := rfl
@[simp] theorem State.setSp_p (v : Word) : (s.setSp v).p = s.p := rfl
@[simp] theorem State.setSp_e (v : Word) : (s.setSp v).e = s.e := rfl
@[simp] theorem State.setSp_run (v : Word) : (s.setSp v).run = s.run := rfl
@[simp] theorem State.setSp_nmiPending (v : Word) : (s.setSp v).nmiPending = s.nmiPending := rfl
@[simp] theorem State.setSp_irqLine (v : Word) : (s.setSp v).irqLine = s.irqLine := rfl
@[simp] theorem State.setSp_abortReq (v : Word) : (s.setSp v).abortReq = s.abortReq := rfl
@[simp] theorem State.setSp_resetReq (v : Word) : (s.setSp v).resetReq = s.resetReq := rfl
@[simp] theorem State.setSp_schedule (v : Word) : (s.setSp v).schedule = s.schedule := rfl
@[simp] theorem State.setSp_platform (v : Word) : (s.setSp v).platform = s.platform := rfl
@[simp] theorem State.setSp_mem (v : Word) : (s.setSp v).mem = s.mem := rfl
@[simp] theorem State.setSp_draws (v : Word) : (s.setSp v).draws = s.draws := rfl

@[simp] theorem State.push8_c (k : StackRule) (v : Byte) : (s.push8 k v).c = s.c := rfl
@[simp] theorem State.push8_x (k : StackRule) (v : Byte) : (s.push8 k v).x = s.x := rfl
@[simp] theorem State.push8_y (k : StackRule) (v : Byte) : (s.push8 k v).y = s.y := rfl
@[simp] theorem State.push8_d (k : StackRule) (v : Byte) : (s.push8 k v).d = s.d := rfl
@[simp] theorem State.push8_dbr (k : StackRule) (v : Byte) : (s.push8 k v).dbr = s.dbr := rfl
@[simp] theorem State.push8_pbr (k : StackRule) (v : Byte) : (s.push8 k v).pbr = s.pbr := rfl
@[simp] theorem State.push8_pc (k : StackRule) (v : Byte) : (s.push8 k v).pc = s.pc := rfl
@[simp] theorem State.push8_p (k : StackRule) (v : Byte) : (s.push8 k v).p = s.p := rfl
@[simp] theorem State.push8_e (k : StackRule) (v : Byte) : (s.push8 k v).e = s.e := rfl
@[simp] theorem State.push8_run (k : StackRule) (v : Byte) : (s.push8 k v).run = s.run := rfl
@[simp] theorem State.push8_nmiPending (k : StackRule) (v : Byte) : (s.push8 k v).nmiPending = s.nmiPending :=
  rfl
@[simp] theorem State.push8_irqLine (k : StackRule) (v : Byte) : (s.push8 k v).irqLine = s.irqLine := rfl
@[simp] theorem State.push8_abortReq (k : StackRule) (v : Byte) : (s.push8 k v).abortReq = s.abortReq := rfl
@[simp] theorem State.push8_resetReq (k : StackRule) (v : Byte) : (s.push8 k v).resetReq = s.resetReq := rfl
@[simp] theorem State.push8_schedule (k : StackRule) (v : Byte) : (s.push8 k v).schedule = s.schedule := rfl
@[simp] theorem State.push8_platform (k : StackRule) (v : Byte) : (s.push8 k v).platform = s.platform := rfl
@[simp] theorem State.push8_draws (k : StackRule) (v : Byte) : (s.push8 k v).draws = s.draws := rfl

@[simp] theorem State.push16_c (k : StackRule) (v : Word) : (s.push16 k v).c = s.c := rfl
@[simp] theorem State.push16_x (k : StackRule) (v : Word) : (s.push16 k v).x = s.x := rfl
@[simp] theorem State.push16_y (k : StackRule) (v : Word) : (s.push16 k v).y = s.y := rfl
@[simp] theorem State.push16_d (k : StackRule) (v : Word) : (s.push16 k v).d = s.d := rfl
@[simp] theorem State.push16_dbr (k : StackRule) (v : Word) : (s.push16 k v).dbr = s.dbr := rfl
@[simp] theorem State.push16_pbr (k : StackRule) (v : Word) : (s.push16 k v).pbr = s.pbr := rfl
@[simp] theorem State.push16_pc (k : StackRule) (v : Word) : (s.push16 k v).pc = s.pc := rfl
@[simp] theorem State.push16_p (k : StackRule) (v : Word) : (s.push16 k v).p = s.p := rfl
@[simp] theorem State.push16_e (k : StackRule) (v : Word) : (s.push16 k v).e = s.e := rfl
@[simp] theorem State.push16_run (k : StackRule) (v : Word) : (s.push16 k v).run = s.run := rfl
@[simp] theorem State.push16_nmiPending (k : StackRule) (v : Word) : (s.push16 k v).nmiPending = s.nmiPending :=
  rfl
@[simp] theorem State.push16_irqLine (k : StackRule) (v : Word) : (s.push16 k v).irqLine = s.irqLine := rfl
@[simp] theorem State.push16_abortReq (k : StackRule) (v : Word) : (s.push16 k v).abortReq = s.abortReq :=
  rfl
@[simp] theorem State.push16_resetReq (k : StackRule) (v : Word) : (s.push16 k v).resetReq = s.resetReq :=
  rfl
@[simp] theorem State.push16_schedule (k : StackRule) (v : Word) : (s.push16 k v).schedule = s.schedule :=
  rfl
@[simp] theorem State.push16_platform (k : StackRule) (v : Word) : (s.push16 k v).platform = s.platform :=
  rfl
@[simp] theorem State.push16_draws (k : StackRule) (v : Word) : (s.push16 k v).draws = s.draws := rfl

@[simp] theorem State.pushW_c (k : StackRule) (w : Width) (v : Word) : (s.pushW k w v).c = s.c :=
  by cases w <;> rfl
@[simp] theorem State.pushW_x (k : StackRule) (w : Width) (v : Word) : (s.pushW k w v).x = s.x :=
  by cases w <;> rfl
@[simp] theorem State.pushW_y (k : StackRule) (w : Width) (v : Word) : (s.pushW k w v).y = s.y :=
  by cases w <;> rfl
@[simp] theorem State.pushW_d (k : StackRule) (w : Width) (v : Word) : (s.pushW k w v).d = s.d :=
  by cases w <;> rfl
@[simp] theorem State.pushW_dbr (k : StackRule) (w : Width) (v : Word) : (s.pushW k w v).dbr = s.dbr :=
  by cases w <;> rfl
@[simp] theorem State.pushW_pbr (k : StackRule) (w : Width) (v : Word) : (s.pushW k w v).pbr = s.pbr :=
  by cases w <;> rfl
@[simp] theorem State.pushW_pc (k : StackRule) (w : Width) (v : Word) : (s.pushW k w v).pc = s.pc :=
  by cases w <;> rfl
@[simp] theorem State.pushW_p (k : StackRule) (w : Width) (v : Word) : (s.pushW k w v).p = s.p :=
  by cases w <;> rfl
@[simp] theorem State.pushW_e (k : StackRule) (w : Width) (v : Word) : (s.pushW k w v).e = s.e :=
  by cases w <;> rfl
@[simp] theorem State.pushW_run (k : StackRule) (w : Width) (v : Word) : (s.pushW k w v).run = s.run :=
  by cases w <;> rfl
@[simp] theorem State.pushW_nmiPending (k : StackRule) (w : Width) (v : Word) : (s.pushW k w v).nmiPending = s.nmiPending :=
  by cases w <;> rfl
@[simp] theorem State.pushW_irqLine (k : StackRule) (w : Width) (v : Word) : (s.pushW k w v).irqLine = s.irqLine :=
  by cases w <;> rfl
@[simp] theorem State.pushW_abortReq (k : StackRule) (w : Width) (v : Word) : (s.pushW k w v).abortReq = s.abortReq :=
  by cases w <;> rfl
@[simp] theorem State.pushW_resetReq (k : StackRule) (w : Width) (v : Word) : (s.pushW k w v).resetReq = s.resetReq :=
  by cases w <;> rfl
@[simp] theorem State.pushW_schedule (k : StackRule) (w : Width) (v : Word) : (s.pushW k w v).schedule = s.schedule :=
  by cases w <;> rfl
@[simp] theorem State.pushW_platform (k : StackRule) (w : Width) (v : Word) : (s.pushW k w v).platform = s.platform :=
  by cases w <;> rfl
@[simp] theorem State.pushW_draws (k : StackRule) (w : Width) (v : Word) : (s.pushW k w v).draws = s.draws :=
  by cases w <;> rfl

@[simp] theorem State.popped_c (k : StackRule) : (s.popped k).c = s.c := rfl
@[simp] theorem State.popped_x (k : StackRule) : (s.popped k).x = s.x := rfl
@[simp] theorem State.popped_y (k : StackRule) : (s.popped k).y = s.y := rfl
@[simp] theorem State.popped_d (k : StackRule) : (s.popped k).d = s.d := rfl
@[simp] theorem State.popped_dbr (k : StackRule) : (s.popped k).dbr = s.dbr := rfl
@[simp] theorem State.popped_pbr (k : StackRule) : (s.popped k).pbr = s.pbr := rfl
@[simp] theorem State.popped_pc (k : StackRule) : (s.popped k).pc = s.pc := rfl
@[simp] theorem State.popped_p (k : StackRule) : (s.popped k).p = s.p := rfl
@[simp] theorem State.popped_e (k : StackRule) : (s.popped k).e = s.e := rfl
@[simp] theorem State.popped_run (k : StackRule) : (s.popped k).run = s.run := rfl
@[simp] theorem State.popped_nmiPending (k : StackRule) : (s.popped k).nmiPending = s.nmiPending := rfl
@[simp] theorem State.popped_irqLine (k : StackRule) : (s.popped k).irqLine = s.irqLine := rfl
@[simp] theorem State.popped_abortReq (k : StackRule) : (s.popped k).abortReq = s.abortReq := rfl
@[simp] theorem State.popped_resetReq (k : StackRule) : (s.popped k).resetReq = s.resetReq := rfl
@[simp] theorem State.popped_schedule (k : StackRule) : (s.popped k).schedule = s.schedule := rfl
@[simp] theorem State.popped_platform (k : StackRule) : (s.popped k).platform = s.platform := rfl
@[simp] theorem State.popped_mem (k : StackRule) : (s.popped k).mem = s.mem := rfl
@[simp] theorem State.popped_draws (k : StackRule) : (s.popped k).draws = s.draws := rfl

@[simp] theorem State.poppedW_c (k : StackRule) (w : Width) : (s.poppedW k w).c = s.c := by cases w <;> rfl
@[simp] theorem State.poppedW_x (k : StackRule) (w : Width) : (s.poppedW k w).x = s.x := by cases w <;> rfl
@[simp] theorem State.poppedW_y (k : StackRule) (w : Width) : (s.poppedW k w).y = s.y := by cases w <;> rfl
@[simp] theorem State.poppedW_d (k : StackRule) (w : Width) : (s.poppedW k w).d = s.d := by cases w <;> rfl
@[simp] theorem State.poppedW_dbr (k : StackRule) (w : Width) : (s.poppedW k w).dbr = s.dbr :=
  by cases w <;> rfl
@[simp] theorem State.poppedW_pbr (k : StackRule) (w : Width) : (s.poppedW k w).pbr = s.pbr :=
  by cases w <;> rfl
@[simp] theorem State.poppedW_pc (k : StackRule) (w : Width) : (s.poppedW k w).pc = s.pc :=
  by cases w <;> rfl
@[simp] theorem State.poppedW_p (k : StackRule) (w : Width) : (s.poppedW k w).p = s.p := by cases w <;> rfl
@[simp] theorem State.poppedW_e (k : StackRule) (w : Width) : (s.poppedW k w).e = s.e := by cases w <;> rfl
@[simp] theorem State.poppedW_run (k : StackRule) (w : Width) : (s.poppedW k w).run = s.run :=
  by cases w <;> rfl
@[simp] theorem State.poppedW_nmiPending (k : StackRule) (w : Width) : (s.poppedW k w).nmiPending = s.nmiPending :=
  by cases w <;> rfl
@[simp] theorem State.poppedW_irqLine (k : StackRule) (w : Width) : (s.poppedW k w).irqLine = s.irqLine :=
  by cases w <;> rfl
@[simp] theorem State.poppedW_abortReq (k : StackRule) (w : Width) : (s.poppedW k w).abortReq = s.abortReq :=
  by cases w <;> rfl
@[simp] theorem State.poppedW_resetReq (k : StackRule) (w : Width) : (s.poppedW k w).resetReq = s.resetReq :=
  by cases w <;> rfl
@[simp] theorem State.poppedW_schedule (k : StackRule) (w : Width) : (s.poppedW k w).schedule = s.schedule :=
  by cases w <;> rfl
@[simp] theorem State.poppedW_platform (k : StackRule) (w : Width) : (s.poppedW k w).platform = s.platform :=
  by cases w <;> rfl
@[simp] theorem State.poppedW_mem (k : StackRule) (w : Width) : (s.poppedW k w).mem = s.mem :=
  by cases w <;> rfl
@[simp] theorem State.poppedW_draws (k : StackRule) (w : Width) : (s.poppedW k w).draws = s.draws :=
  by cases w <;> rfl

@[simp] theorem State.forceStackPage_c : (s.forceStackPage).c = s.c := rfl
@[simp] theorem State.forceStackPage_x : (s.forceStackPage).x = s.x := rfl
@[simp] theorem State.forceStackPage_y : (s.forceStackPage).y = s.y := rfl
@[simp] theorem State.forceStackPage_d : (s.forceStackPage).d = s.d := rfl
@[simp] theorem State.forceStackPage_dbr : (s.forceStackPage).dbr = s.dbr := rfl
@[simp] theorem State.forceStackPage_pbr : (s.forceStackPage).pbr = s.pbr := rfl
@[simp] theorem State.forceStackPage_pc : (s.forceStackPage).pc = s.pc := rfl
@[simp] theorem State.forceStackPage_p : (s.forceStackPage).p = s.p := rfl
@[simp] theorem State.forceStackPage_e : (s.forceStackPage).e = s.e := rfl
@[simp] theorem State.forceStackPage_run : (s.forceStackPage).run = s.run := rfl
@[simp] theorem State.forceStackPage_nmiPending : (s.forceStackPage).nmiPending = s.nmiPending := rfl
@[simp] theorem State.forceStackPage_irqLine : (s.forceStackPage).irqLine = s.irqLine := rfl
@[simp] theorem State.forceStackPage_abortReq : (s.forceStackPage).abortReq = s.abortReq := rfl
@[simp] theorem State.forceStackPage_resetReq : (s.forceStackPage).resetReq = s.resetReq := rfl
@[simp] theorem State.forceStackPage_schedule : (s.forceStackPage).schedule = s.schedule := rfl
@[simp] theorem State.forceStackPage_platform : (s.forceStackPage).platform = s.platform := rfl
@[simp] theorem State.forceStackPage_mem : (s.forceStackPage).mem = s.mem := rfl
@[simp] theorem State.forceStackPage_draws : (s.forceStackPage).draws = s.draws := rfl

@[simp] theorem State.pushFrame_c (k : IntKind) : (s.pushFrame k).c = s.c :=
  by cases h : s.e <;> simp [State.pushFrame, h]
@[simp] theorem State.pushFrame_x (k : IntKind) : (s.pushFrame k).x = s.x :=
  by cases h : s.e <;> simp [State.pushFrame, h]
@[simp] theorem State.pushFrame_y (k : IntKind) : (s.pushFrame k).y = s.y :=
  by cases h : s.e <;> simp [State.pushFrame, h]
@[simp] theorem State.pushFrame_d (k : IntKind) : (s.pushFrame k).d = s.d :=
  by cases h : s.e <;> simp [State.pushFrame, h]
@[simp] theorem State.pushFrame_dbr (k : IntKind) : (s.pushFrame k).dbr = s.dbr :=
  by cases h : s.e <;> simp [State.pushFrame, h]
@[simp] theorem State.pushFrame_pbr (k : IntKind) : (s.pushFrame k).pbr = s.pbr :=
  by cases h : s.e <;> simp [State.pushFrame, h]
@[simp] theorem State.pushFrame_pc (k : IntKind) : (s.pushFrame k).pc = s.pc :=
  by cases h : s.e <;> simp [State.pushFrame, h]
@[simp] theorem State.pushFrame_p (k : IntKind) : (s.pushFrame k).p = s.p :=
  by cases h : s.e <;> simp [State.pushFrame, h]
@[simp] theorem State.pushFrame_e (k : IntKind) : (s.pushFrame k).e = s.e :=
  by cases h : s.e <;> simp [State.pushFrame, h]
@[simp] theorem State.pushFrame_run (k : IntKind) : (s.pushFrame k).run = s.run :=
  by cases h : s.e <;> simp [State.pushFrame, h]
@[simp] theorem State.pushFrame_nmiPending (k : IntKind) : (s.pushFrame k).nmiPending = s.nmiPending :=
  by cases h : s.e <;> simp [State.pushFrame, h]
@[simp] theorem State.pushFrame_irqLine (k : IntKind) : (s.pushFrame k).irqLine = s.irqLine :=
  by cases h : s.e <;> simp [State.pushFrame, h]
@[simp] theorem State.pushFrame_abortReq (k : IntKind) : (s.pushFrame k).abortReq = s.abortReq :=
  by cases h : s.e <;> simp [State.pushFrame, h]
@[simp] theorem State.pushFrame_resetReq (k : IntKind) : (s.pushFrame k).resetReq = s.resetReq :=
  by cases h : s.e <;> simp [State.pushFrame, h]
@[simp] theorem State.pushFrame_schedule (k : IntKind) : (s.pushFrame k).schedule = s.schedule :=
  by cases h : s.e <;> simp [State.pushFrame, h]
@[simp] theorem State.pushFrame_platform (k : IntKind) : (s.pushFrame k).platform = s.platform :=
  by cases h : s.e <;> simp [State.pushFrame, h]
@[simp] theorem State.pushFrame_draws (k : IntKind) : (s.pushFrame k).draws = s.draws :=
  by cases h : s.e <;> simp [State.pushFrame, h]

@[simp] theorem State.enter_c (k : IntKind) : (s.enter k).c = s.c := by simp [State.enter]
@[simp] theorem State.enter_x (k : IntKind) : (s.enter k).x = s.x := by simp [State.enter]
@[simp] theorem State.enter_y (k : IntKind) : (s.enter k).y = s.y := by simp [State.enter]
@[simp] theorem State.enter_d (k : IntKind) : (s.enter k).d = s.d := by simp [State.enter]
@[simp] theorem State.enter_dbr (k : IntKind) : (s.enter k).dbr = s.dbr := by simp [State.enter]
@[simp] theorem State.enter_e (k : IntKind) : (s.enter k).e = s.e := by simp [State.enter]
@[simp] theorem State.enter_run (k : IntKind) : (s.enter k).run = s.run := by simp [State.enter]
@[simp] theorem State.enter_irqLine (k : IntKind) : (s.enter k).irqLine = s.irqLine := by simp [State.enter]
@[simp] theorem State.enter_abortReq (k : IntKind) : (s.enter k).abortReq = s.abortReq :=
  by simp [State.enter]
@[simp] theorem State.enter_resetReq (k : IntKind) : (s.enter k).resetReq = s.resetReq :=
  by simp [State.enter]
@[simp] theorem State.enter_schedule (k : IntKind) : (s.enter k).schedule = s.schedule :=
  by simp [State.enter]
@[simp] theorem State.enter_platform (k : IntKind) : (s.enter k).platform = s.platform :=
  by simp [State.enter]
@[simp] theorem State.enter_draws (k : IntKind) : (s.enter k).draws = s.draws := by simp [State.enter]

@[simp] theorem State.resume_c : (s.resume).c = s.c := rfl
@[simp] theorem State.resume_x : (s.resume).x = s.x := rfl
@[simp] theorem State.resume_y : (s.resume).y = s.y := rfl
@[simp] theorem State.resume_sp : (s.resume).sp = s.sp := rfl
@[simp] theorem State.resume_d : (s.resume).d = s.d := rfl
@[simp] theorem State.resume_dbr : (s.resume).dbr = s.dbr := rfl
@[simp] theorem State.resume_pbr : (s.resume).pbr = s.pbr := rfl
@[simp] theorem State.resume_pc : (s.resume).pc = s.pc := rfl
@[simp] theorem State.resume_p : (s.resume).p = s.p := rfl
@[simp] theorem State.resume_e : (s.resume).e = s.e := rfl
@[simp] theorem State.resume_nmiPending : (s.resume).nmiPending = s.nmiPending := rfl
@[simp] theorem State.resume_irqLine : (s.resume).irqLine = s.irqLine := rfl
@[simp] theorem State.resume_abortReq : (s.resume).abortReq = s.abortReq := rfl
@[simp] theorem State.resume_resetReq : (s.resume).resetReq = s.resetReq := rfl
@[simp] theorem State.resume_schedule : (s.resume).schedule = s.schedule := rfl
@[simp] theorem State.resume_platform : (s.resume).platform = s.platform := rfl
@[simp] theorem State.resume_mem : (s.resume).mem = s.mem := rfl
@[simp] theorem State.resume_draws : (s.resume).draws = s.draws := rfl

@[simp] theorem State.endStep_c : (s.endStep).c = s.c := rfl
@[simp] theorem State.endStep_x : (s.endStep).x = s.x := rfl
@[simp] theorem State.endStep_y : (s.endStep).y = s.y := rfl
@[simp] theorem State.endStep_d : (s.endStep).d = s.d := rfl
@[simp] theorem State.endStep_dbr : (s.endStep).dbr = s.dbr := rfl
@[simp] theorem State.endStep_pbr : (s.endStep).pbr = s.pbr := rfl
@[simp] theorem State.endStep_pc : (s.endStep).pc = s.pc := rfl
@[simp] theorem State.endStep_p : (s.endStep).p = s.p := rfl
@[simp] theorem State.endStep_e : (s.endStep).e = s.e := rfl
@[simp] theorem State.endStep_run : (s.endStep).run = s.run := rfl
@[simp] theorem State.endStep_nmiPending : (s.endStep).nmiPending = s.nmiPending := rfl
@[simp] theorem State.endStep_irqLine : (s.endStep).irqLine = s.irqLine := rfl
@[simp] theorem State.endStep_abortReq : (s.endStep).abortReq = s.abortReq := rfl
@[simp] theorem State.endStep_resetReq : (s.endStep).resetReq = s.resetReq := rfl
@[simp] theorem State.endStep_schedule : (s.endStep).schedule = s.schedule := rfl
@[simp] theorem State.endStep_platform : (s.endStep).platform = s.platform := rfl
@[simp] theorem State.endStep_mem : (s.endStep).mem = s.mem := rfl

@[simp] theorem State.advance_c (i : Instr) : (s.advance i).c = s.c := rfl
@[simp] theorem State.advance_x (i : Instr) : (s.advance i).x = s.x := rfl
@[simp] theorem State.advance_y (i : Instr) : (s.advance i).y = s.y := rfl
@[simp] theorem State.advance_sp (i : Instr) : (s.advance i).sp = s.sp := rfl
@[simp] theorem State.advance_d (i : Instr) : (s.advance i).d = s.d := rfl
@[simp] theorem State.advance_dbr (i : Instr) : (s.advance i).dbr = s.dbr := rfl
@[simp] theorem State.advance_pbr (i : Instr) : (s.advance i).pbr = s.pbr := rfl
@[simp] theorem State.advance_p (i : Instr) : (s.advance i).p = s.p := rfl
@[simp] theorem State.advance_e (i : Instr) : (s.advance i).e = s.e := rfl
@[simp] theorem State.advance_run (i : Instr) : (s.advance i).run = s.run := rfl
@[simp] theorem State.advance_nmiPending (i : Instr) : (s.advance i).nmiPending = s.nmiPending := rfl
@[simp] theorem State.advance_irqLine (i : Instr) : (s.advance i).irqLine = s.irqLine := rfl
@[simp] theorem State.advance_abortReq (i : Instr) : (s.advance i).abortReq = s.abortReq := rfl
@[simp] theorem State.advance_resetReq (i : Instr) : (s.advance i).resetReq = s.resetReq := rfl
@[simp] theorem State.advance_schedule (i : Instr) : (s.advance i).schedule = s.schedule := rfl
@[simp] theorem State.advance_platform (i : Instr) : (s.advance i).platform = s.platform := rfl
@[simp] theorem State.advance_mem (i : Instr) : (s.advance i).mem = s.mem := rfl
@[simp] theorem State.advance_draws (i : Instr) : (s.advance i).draws = s.draws := rfl

@[simp] theorem State.resetWith_irqLine (r : ResetDraw) : (s.resetWith r).irqLine = s.irqLine := rfl
@[simp] theorem State.resetWith_resetReq (r : ResetDraw) : (s.resetWith r).resetReq = s.resetReq := rfl
@[simp] theorem State.resetWith_schedule (r : ResetDraw) : (s.resetWith r).schedule = s.schedule := rfl
@[simp] theorem State.resetWith_platform (r : ResetDraw) : (s.resetWith r).platform = s.platform := rfl
@[simp] theorem State.resetWith_mem (r : ResetDraw) : (s.resetWith r).mem = s.mem := rfl
@[simp] theorem State.resetWith_draws (r : ResetDraw) : (s.resetWith r).draws = s.draws := rfl

@[simp] theorem State.withRun_c (r : RunState) : (s.withRun r).c = s.c := rfl
@[simp] theorem State.withRun_x (r : RunState) : (s.withRun r).x = s.x := rfl
@[simp] theorem State.withRun_y (r : RunState) : (s.withRun r).y = s.y := rfl
@[simp] theorem State.withRun_sp (r : RunState) : (s.withRun r).sp = s.sp := rfl
@[simp] theorem State.withRun_d (r : RunState) : (s.withRun r).d = s.d := rfl
@[simp] theorem State.withRun_dbr (r : RunState) : (s.withRun r).dbr = s.dbr := rfl
@[simp] theorem State.withRun_pbr (r : RunState) : (s.withRun r).pbr = s.pbr := rfl
@[simp] theorem State.withRun_pc (r : RunState) : (s.withRun r).pc = s.pc := rfl
@[simp] theorem State.withRun_p (r : RunState) : (s.withRun r).p = s.p := rfl
@[simp] theorem State.withRun_e (r : RunState) : (s.withRun r).e = s.e := rfl
@[simp] theorem State.withRun_nmiPending (r : RunState) : (s.withRun r).nmiPending = s.nmiPending := rfl
@[simp] theorem State.withRun_irqLine (r : RunState) : (s.withRun r).irqLine = s.irqLine := rfl
@[simp] theorem State.withRun_abortReq (r : RunState) : (s.withRun r).abortReq = s.abortReq := rfl
@[simp] theorem State.withRun_resetReq (r : RunState) : (s.withRun r).resetReq = s.resetReq := rfl
@[simp] theorem State.withRun_schedule (r : RunState) : (s.withRun r).schedule = s.schedule := rfl
@[simp] theorem State.withRun_platform (r : RunState) : (s.withRun r).platform = s.platform := rfl
@[simp] theorem State.withRun_mem (r : RunState) : (s.withRun r).mem = s.mem := rfl
@[simp] theorem State.withRun_draws (r : RunState) : (s.withRun r).draws = s.draws := rfl

@[simp] theorem State.resetBits_c (k : Byte) : (s.resetBits k).c = s.c := rfl
@[simp] theorem State.resetBits_x (k : Byte) : (s.resetBits k).x = s.x := rfl
@[simp] theorem State.resetBits_y (k : Byte) : (s.resetBits k).y = s.y := rfl
@[simp] theorem State.resetBits_sp (k : Byte) : (s.resetBits k).sp = s.sp := rfl
@[simp] theorem State.resetBits_d (k : Byte) : (s.resetBits k).d = s.d := rfl
@[simp] theorem State.resetBits_dbr (k : Byte) : (s.resetBits k).dbr = s.dbr := rfl
@[simp] theorem State.resetBits_pbr (k : Byte) : (s.resetBits k).pbr = s.pbr := rfl
@[simp] theorem State.resetBits_pc (k : Byte) : (s.resetBits k).pc = s.pc := rfl
@[simp] theorem State.resetBits_e (k : Byte) : (s.resetBits k).e = s.e := rfl
@[simp] theorem State.resetBits_run (k : Byte) : (s.resetBits k).run = s.run := rfl
@[simp] theorem State.resetBits_nmiPending (k : Byte) : (s.resetBits k).nmiPending = s.nmiPending := rfl
@[simp] theorem State.resetBits_irqLine (k : Byte) : (s.resetBits k).irqLine = s.irqLine := rfl
@[simp] theorem State.resetBits_abortReq (k : Byte) : (s.resetBits k).abortReq = s.abortReq := rfl
@[simp] theorem State.resetBits_resetReq (k : Byte) : (s.resetBits k).resetReq = s.resetReq := rfl
@[simp] theorem State.resetBits_schedule (k : Byte) : (s.resetBits k).schedule = s.schedule := rfl
@[simp] theorem State.resetBits_platform (k : Byte) : (s.resetBits k).platform = s.platform := rfl
@[simp] theorem State.resetBits_mem (k : Byte) : (s.resetBits k).mem = s.mem := rfl
@[simp] theorem State.resetBits_draws (k : Byte) : (s.resetBits k).draws = s.draws := rfl

@[simp] theorem State.jump_c (t : Word) : (s.jump t).c = s.c := rfl
@[simp] theorem State.jump_x (t : Word) : (s.jump t).x = s.x := rfl
@[simp] theorem State.jump_y (t : Word) : (s.jump t).y = s.y := rfl
@[simp] theorem State.jump_sp (t : Word) : (s.jump t).sp = s.sp := rfl
@[simp] theorem State.jump_d (t : Word) : (s.jump t).d = s.d := rfl
@[simp] theorem State.jump_dbr (t : Word) : (s.jump t).dbr = s.dbr := rfl
@[simp] theorem State.jump_pbr (t : Word) : (s.jump t).pbr = s.pbr := rfl
@[simp] theorem State.jump_p (t : Word) : (s.jump t).p = s.p := rfl
@[simp] theorem State.jump_e (t : Word) : (s.jump t).e = s.e := rfl
@[simp] theorem State.jump_run (t : Word) : (s.jump t).run = s.run := rfl
@[simp] theorem State.jump_nmiPending (t : Word) : (s.jump t).nmiPending = s.nmiPending := rfl
@[simp] theorem State.jump_irqLine (t : Word) : (s.jump t).irqLine = s.irqLine := rfl
@[simp] theorem State.jump_abortReq (t : Word) : (s.jump t).abortReq = s.abortReq := rfl
@[simp] theorem State.jump_resetReq (t : Word) : (s.jump t).resetReq = s.resetReq := rfl
@[simp] theorem State.jump_schedule (t : Word) : (s.jump t).schedule = s.schedule := rfl
@[simp] theorem State.jump_platform (t : Word) : (s.jump t).platform = s.platform := rfl
@[simp] theorem State.jump_mem (t : Word) : (s.jump t).mem = s.mem := rfl
@[simp] theorem State.jump_draws (t : Word) : (s.jump t).draws = s.draws := rfl

@[simp] theorem State.jumpLong_c (t : Addr) : (s.jumpLong t).c = s.c := rfl
@[simp] theorem State.jumpLong_x (t : Addr) : (s.jumpLong t).x = s.x := rfl
@[simp] theorem State.jumpLong_y (t : Addr) : (s.jumpLong t).y = s.y := rfl
@[simp] theorem State.jumpLong_sp (t : Addr) : (s.jumpLong t).sp = s.sp := rfl
@[simp] theorem State.jumpLong_d (t : Addr) : (s.jumpLong t).d = s.d := rfl
@[simp] theorem State.jumpLong_dbr (t : Addr) : (s.jumpLong t).dbr = s.dbr := rfl
@[simp] theorem State.jumpLong_p (t : Addr) : (s.jumpLong t).p = s.p := rfl
@[simp] theorem State.jumpLong_e (t : Addr) : (s.jumpLong t).e = s.e := rfl
@[simp] theorem State.jumpLong_run (t : Addr) : (s.jumpLong t).run = s.run := rfl
@[simp] theorem State.jumpLong_nmiPending (t : Addr) : (s.jumpLong t).nmiPending = s.nmiPending := rfl
@[simp] theorem State.jumpLong_irqLine (t : Addr) : (s.jumpLong t).irqLine = s.irqLine := rfl
@[simp] theorem State.jumpLong_abortReq (t : Addr) : (s.jumpLong t).abortReq = s.abortReq := rfl
@[simp] theorem State.jumpLong_resetReq (t : Addr) : (s.jumpLong t).resetReq = s.resetReq := rfl
@[simp] theorem State.jumpLong_schedule (t : Addr) : (s.jumpLong t).schedule = s.schedule := rfl
@[simp] theorem State.jumpLong_platform (t : Addr) : (s.jumpLong t).platform = s.platform := rfl
@[simp] theorem State.jumpLong_mem (t : Addr) : (s.jumpLong t).mem = s.mem := rfl
@[simp] theorem State.jumpLong_draws (t : Addr) : (s.jumpLong t).draws = s.draws := rfl

@[simp] theorem State.branchIf_c (b : Bool) (o : Byte) : (s.branchIf b o).c = s.c := rfl
@[simp] theorem State.branchIf_x (b : Bool) (o : Byte) : (s.branchIf b o).x = s.x := rfl
@[simp] theorem State.branchIf_y (b : Bool) (o : Byte) : (s.branchIf b o).y = s.y := rfl
@[simp] theorem State.branchIf_sp (b : Bool) (o : Byte) : (s.branchIf b o).sp = s.sp := rfl
@[simp] theorem State.branchIf_d (b : Bool) (o : Byte) : (s.branchIf b o).d = s.d := rfl
@[simp] theorem State.branchIf_dbr (b : Bool) (o : Byte) : (s.branchIf b o).dbr = s.dbr := rfl
@[simp] theorem State.branchIf_pbr (b : Bool) (o : Byte) : (s.branchIf b o).pbr = s.pbr := rfl
@[simp] theorem State.branchIf_p (b : Bool) (o : Byte) : (s.branchIf b o).p = s.p := rfl
@[simp] theorem State.branchIf_e (b : Bool) (o : Byte) : (s.branchIf b o).e = s.e := rfl
@[simp] theorem State.branchIf_run (b : Bool) (o : Byte) : (s.branchIf b o).run = s.run := rfl
@[simp] theorem State.branchIf_nmiPending (b : Bool) (o : Byte) : (s.branchIf b o).nmiPending = s.nmiPending :=
  rfl
@[simp] theorem State.branchIf_irqLine (b : Bool) (o : Byte) : (s.branchIf b o).irqLine = s.irqLine := rfl
@[simp] theorem State.branchIf_abortReq (b : Bool) (o : Byte) : (s.branchIf b o).abortReq = s.abortReq := rfl
@[simp] theorem State.branchIf_resetReq (b : Bool) (o : Byte) : (s.branchIf b o).resetReq = s.resetReq := rfl
@[simp] theorem State.branchIf_schedule (b : Bool) (o : Byte) : (s.branchIf b o).schedule = s.schedule := rfl
@[simp] theorem State.branchIf_platform (b : Bool) (o : Byte) : (s.branchIf b o).platform = s.platform := rfl
@[simp] theorem State.branchIf_mem (b : Bool) (o : Byte) : (s.branchIf b o).mem = s.mem := rfl
@[simp] theorem State.branchIf_draws (b : Bool) (o : Byte) : (s.branchIf b o).draws = s.draws := rfl

@[simp] theorem State.pushReturn_c (k : StackRule) : (s.pushReturn k).c = s.c := rfl
@[simp] theorem State.pushReturn_x (k : StackRule) : (s.pushReturn k).x = s.x := rfl
@[simp] theorem State.pushReturn_y (k : StackRule) : (s.pushReturn k).y = s.y := rfl
@[simp] theorem State.pushReturn_d (k : StackRule) : (s.pushReturn k).d = s.d := rfl
@[simp] theorem State.pushReturn_dbr (k : StackRule) : (s.pushReturn k).dbr = s.dbr := rfl
@[simp] theorem State.pushReturn_pbr (k : StackRule) : (s.pushReturn k).pbr = s.pbr := rfl
@[simp] theorem State.pushReturn_pc (k : StackRule) : (s.pushReturn k).pc = s.pc := rfl
@[simp] theorem State.pushReturn_p (k : StackRule) : (s.pushReturn k).p = s.p := rfl
@[simp] theorem State.pushReturn_e (k : StackRule) : (s.pushReturn k).e = s.e := rfl
@[simp] theorem State.pushReturn_run (k : StackRule) : (s.pushReturn k).run = s.run := rfl
@[simp] theorem State.pushReturn_nmiPending (k : StackRule) : (s.pushReturn k).nmiPending = s.nmiPending :=
  rfl
@[simp] theorem State.pushReturn_irqLine (k : StackRule) : (s.pushReturn k).irqLine = s.irqLine := rfl
@[simp] theorem State.pushReturn_abortReq (k : StackRule) : (s.pushReturn k).abortReq = s.abortReq := rfl
@[simp] theorem State.pushReturn_resetReq (k : StackRule) : (s.pushReturn k).resetReq = s.resetReq := rfl
@[simp] theorem State.pushReturn_schedule (k : StackRule) : (s.pushReturn k).schedule = s.schedule := rfl
@[simp] theorem State.pushReturn_platform (k : StackRule) : (s.pushReturn k).platform = s.platform := rfl
@[simp] theorem State.pushReturn_draws (k : StackRule) : (s.pushReturn k).draws = s.draws := rfl

@[simp] theorem State.putArith_x (r : ArithResult) : (s.putArith r).x = s.x := rfl
@[simp] theorem State.putArith_y (r : ArithResult) : (s.putArith r).y = s.y := rfl
@[simp] theorem State.putArith_sp (r : ArithResult) : (s.putArith r).sp = s.sp := rfl
@[simp] theorem State.putArith_d (r : ArithResult) : (s.putArith r).d = s.d := rfl
@[simp] theorem State.putArith_dbr (r : ArithResult) : (s.putArith r).dbr = s.dbr := rfl
@[simp] theorem State.putArith_pbr (r : ArithResult) : (s.putArith r).pbr = s.pbr := rfl
@[simp] theorem State.putArith_pc (r : ArithResult) : (s.putArith r).pc = s.pc := rfl
@[simp] theorem State.putArith_e (r : ArithResult) : (s.putArith r).e = s.e := rfl
@[simp] theorem State.putArith_run (r : ArithResult) : (s.putArith r).run = s.run := rfl
@[simp] theorem State.putArith_nmiPending (r : ArithResult) : (s.putArith r).nmiPending = s.nmiPending := rfl
@[simp] theorem State.putArith_irqLine (r : ArithResult) : (s.putArith r).irqLine = s.irqLine := rfl
@[simp] theorem State.putArith_abortReq (r : ArithResult) : (s.putArith r).abortReq = s.abortReq := rfl
@[simp] theorem State.putArith_resetReq (r : ArithResult) : (s.putArith r).resetReq = s.resetReq := rfl
@[simp] theorem State.putArith_schedule (r : ArithResult) : (s.putArith r).schedule = s.schedule := rfl
@[simp] theorem State.putArith_platform (r : ArithResult) : (s.putArith r).platform = s.platform := rfl
@[simp] theorem State.putArith_mem (r : ArithResult) : (s.putArith r).mem = s.mem := rfl
@[simp] theorem State.putArith_draws (r : ArithResult) : (s.putArith r).draws = s.draws := rfl

@[simp] theorem State.compare_c (w : Width) (a b : Word) : (s.compare w a b).c = s.c := rfl
@[simp] theorem State.compare_x (w : Width) (a b : Word) : (s.compare w a b).x = s.x := rfl
@[simp] theorem State.compare_y (w : Width) (a b : Word) : (s.compare w a b).y = s.y := rfl
@[simp] theorem State.compare_sp (w : Width) (a b : Word) : (s.compare w a b).sp = s.sp := rfl
@[simp] theorem State.compare_d (w : Width) (a b : Word) : (s.compare w a b).d = s.d := rfl
@[simp] theorem State.compare_dbr (w : Width) (a b : Word) : (s.compare w a b).dbr = s.dbr := rfl
@[simp] theorem State.compare_pbr (w : Width) (a b : Word) : (s.compare w a b).pbr = s.pbr := rfl
@[simp] theorem State.compare_pc (w : Width) (a b : Word) : (s.compare w a b).pc = s.pc := rfl
@[simp] theorem State.compare_e (w : Width) (a b : Word) : (s.compare w a b).e = s.e := rfl
@[simp] theorem State.compare_run (w : Width) (a b : Word) : (s.compare w a b).run = s.run := rfl
@[simp] theorem State.compare_nmiPending (w : Width) (a b : Word) : (s.compare w a b).nmiPending = s.nmiPending :=
  rfl
@[simp] theorem State.compare_irqLine (w : Width) (a b : Word) : (s.compare w a b).irqLine = s.irqLine := rfl
@[simp] theorem State.compare_abortReq (w : Width) (a b : Word) : (s.compare w a b).abortReq = s.abortReq :=
  rfl
@[simp] theorem State.compare_resetReq (w : Width) (a b : Word) : (s.compare w a b).resetReq = s.resetReq :=
  rfl
@[simp] theorem State.compare_schedule (w : Width) (a b : Word) : (s.compare w a b).schedule = s.schedule :=
  rfl
@[simp] theorem State.compare_platform (w : Width) (a b : Word) : (s.compare w a b).platform = s.platform :=
  rfl
@[simp] theorem State.compare_mem (w : Width) (a b : Word) : (s.compare w a b).mem = s.mem := rfl
@[simp] theorem State.compare_draws (w : Width) (a b : Word) : (s.compare w a b).draws = s.draws := rfl

@[simp] theorem State.loadAcc_x (v : Word) : (s.loadAcc v).x = s.x := rfl
@[simp] theorem State.loadAcc_y (v : Word) : (s.loadAcc v).y = s.y := rfl
@[simp] theorem State.loadAcc_sp (v : Word) : (s.loadAcc v).sp = s.sp := rfl
@[simp] theorem State.loadAcc_d (v : Word) : (s.loadAcc v).d = s.d := rfl
@[simp] theorem State.loadAcc_dbr (v : Word) : (s.loadAcc v).dbr = s.dbr := rfl
@[simp] theorem State.loadAcc_pbr (v : Word) : (s.loadAcc v).pbr = s.pbr := rfl
@[simp] theorem State.loadAcc_pc (v : Word) : (s.loadAcc v).pc = s.pc := rfl
@[simp] theorem State.loadAcc_e (v : Word) : (s.loadAcc v).e = s.e := rfl
@[simp] theorem State.loadAcc_run (v : Word) : (s.loadAcc v).run = s.run := rfl
@[simp] theorem State.loadAcc_nmiPending (v : Word) : (s.loadAcc v).nmiPending = s.nmiPending := rfl
@[simp] theorem State.loadAcc_irqLine (v : Word) : (s.loadAcc v).irqLine = s.irqLine := rfl
@[simp] theorem State.loadAcc_abortReq (v : Word) : (s.loadAcc v).abortReq = s.abortReq := rfl
@[simp] theorem State.loadAcc_resetReq (v : Word) : (s.loadAcc v).resetReq = s.resetReq := rfl
@[simp] theorem State.loadAcc_schedule (v : Word) : (s.loadAcc v).schedule = s.schedule := rfl
@[simp] theorem State.loadAcc_platform (v : Word) : (s.loadAcc v).platform = s.platform := rfl
@[simp] theorem State.loadAcc_mem (v : Word) : (s.loadAcc v).mem = s.mem := rfl
@[simp] theorem State.loadAcc_draws (v : Word) : (s.loadAcc v).draws = s.draws := rfl

@[simp] theorem State.loadX_c (v : Word) : (s.loadX v).c = s.c := rfl
@[simp] theorem State.loadX_y (v : Word) : (s.loadX v).y = s.y := rfl
@[simp] theorem State.loadX_sp (v : Word) : (s.loadX v).sp = s.sp := rfl
@[simp] theorem State.loadX_d (v : Word) : (s.loadX v).d = s.d := rfl
@[simp] theorem State.loadX_dbr (v : Word) : (s.loadX v).dbr = s.dbr := rfl
@[simp] theorem State.loadX_pbr (v : Word) : (s.loadX v).pbr = s.pbr := rfl
@[simp] theorem State.loadX_pc (v : Word) : (s.loadX v).pc = s.pc := rfl
@[simp] theorem State.loadX_e (v : Word) : (s.loadX v).e = s.e := rfl
@[simp] theorem State.loadX_run (v : Word) : (s.loadX v).run = s.run := rfl
@[simp] theorem State.loadX_nmiPending (v : Word) : (s.loadX v).nmiPending = s.nmiPending := rfl
@[simp] theorem State.loadX_irqLine (v : Word) : (s.loadX v).irqLine = s.irqLine := rfl
@[simp] theorem State.loadX_abortReq (v : Word) : (s.loadX v).abortReq = s.abortReq := rfl
@[simp] theorem State.loadX_resetReq (v : Word) : (s.loadX v).resetReq = s.resetReq := rfl
@[simp] theorem State.loadX_schedule (v : Word) : (s.loadX v).schedule = s.schedule := rfl
@[simp] theorem State.loadX_platform (v : Word) : (s.loadX v).platform = s.platform := rfl
@[simp] theorem State.loadX_mem (v : Word) : (s.loadX v).mem = s.mem := rfl
@[simp] theorem State.loadX_draws (v : Word) : (s.loadX v).draws = s.draws := rfl

@[simp] theorem State.loadY_c (v : Word) : (s.loadY v).c = s.c := rfl
@[simp] theorem State.loadY_x (v : Word) : (s.loadY v).x = s.x := rfl
@[simp] theorem State.loadY_sp (v : Word) : (s.loadY v).sp = s.sp := rfl
@[simp] theorem State.loadY_d (v : Word) : (s.loadY v).d = s.d := rfl
@[simp] theorem State.loadY_dbr (v : Word) : (s.loadY v).dbr = s.dbr := rfl
@[simp] theorem State.loadY_pbr (v : Word) : (s.loadY v).pbr = s.pbr := rfl
@[simp] theorem State.loadY_pc (v : Word) : (s.loadY v).pc = s.pc := rfl
@[simp] theorem State.loadY_e (v : Word) : (s.loadY v).e = s.e := rfl
@[simp] theorem State.loadY_run (v : Word) : (s.loadY v).run = s.run := rfl
@[simp] theorem State.loadY_nmiPending (v : Word) : (s.loadY v).nmiPending = s.nmiPending := rfl
@[simp] theorem State.loadY_irqLine (v : Word) : (s.loadY v).irqLine = s.irqLine := rfl
@[simp] theorem State.loadY_abortReq (v : Word) : (s.loadY v).abortReq = s.abortReq := rfl
@[simp] theorem State.loadY_resetReq (v : Word) : (s.loadY v).resetReq = s.resetReq := rfl
@[simp] theorem State.loadY_schedule (v : Word) : (s.loadY v).schedule = s.schedule := rfl
@[simp] theorem State.loadY_platform (v : Word) : (s.loadY v).platform = s.platform := rfl
@[simp] theorem State.loadY_mem (v : Word) : (s.loadY v).mem = s.mem := rfl
@[simp] theorem State.loadY_draws (v : Word) : (s.loadY v).draws = s.draws := rfl

@[simp] theorem State.loadC_x (v : Word) : (s.loadC v).x = s.x := rfl
@[simp] theorem State.loadC_y (v : Word) : (s.loadC v).y = s.y := rfl
@[simp] theorem State.loadC_sp (v : Word) : (s.loadC v).sp = s.sp := rfl
@[simp] theorem State.loadC_d (v : Word) : (s.loadC v).d = s.d := rfl
@[simp] theorem State.loadC_dbr (v : Word) : (s.loadC v).dbr = s.dbr := rfl
@[simp] theorem State.loadC_pbr (v : Word) : (s.loadC v).pbr = s.pbr := rfl
@[simp] theorem State.loadC_pc (v : Word) : (s.loadC v).pc = s.pc := rfl
@[simp] theorem State.loadC_e (v : Word) : (s.loadC v).e = s.e := rfl
@[simp] theorem State.loadC_run (v : Word) : (s.loadC v).run = s.run := rfl
@[simp] theorem State.loadC_nmiPending (v : Word) : (s.loadC v).nmiPending = s.nmiPending := rfl
@[simp] theorem State.loadC_irqLine (v : Word) : (s.loadC v).irqLine = s.irqLine := rfl
@[simp] theorem State.loadC_abortReq (v : Word) : (s.loadC v).abortReq = s.abortReq := rfl
@[simp] theorem State.loadC_resetReq (v : Word) : (s.loadC v).resetReq = s.resetReq := rfl
@[simp] theorem State.loadC_schedule (v : Word) : (s.loadC v).schedule = s.schedule := rfl
@[simp] theorem State.loadC_platform (v : Word) : (s.loadC v).platform = s.platform := rfl
@[simp] theorem State.loadC_mem (v : Word) : (s.loadC v).mem = s.mem := rfl
@[simp] theorem State.loadC_draws (v : Word) : (s.loadC v).draws = s.draws := rfl

@[simp] theorem State.loadD_c (v : Word) : (s.loadD v).c = s.c := rfl
@[simp] theorem State.loadD_x (v : Word) : (s.loadD v).x = s.x := rfl
@[simp] theorem State.loadD_y (v : Word) : (s.loadD v).y = s.y := rfl
@[simp] theorem State.loadD_sp (v : Word) : (s.loadD v).sp = s.sp := rfl
@[simp] theorem State.loadD_dbr (v : Word) : (s.loadD v).dbr = s.dbr := rfl
@[simp] theorem State.loadD_pbr (v : Word) : (s.loadD v).pbr = s.pbr := rfl
@[simp] theorem State.loadD_pc (v : Word) : (s.loadD v).pc = s.pc := rfl
@[simp] theorem State.loadD_e (v : Word) : (s.loadD v).e = s.e := rfl
@[simp] theorem State.loadD_run (v : Word) : (s.loadD v).run = s.run := rfl
@[simp] theorem State.loadD_nmiPending (v : Word) : (s.loadD v).nmiPending = s.nmiPending := rfl
@[simp] theorem State.loadD_irqLine (v : Word) : (s.loadD v).irqLine = s.irqLine := rfl
@[simp] theorem State.loadD_abortReq (v : Word) : (s.loadD v).abortReq = s.abortReq := rfl
@[simp] theorem State.loadD_resetReq (v : Word) : (s.loadD v).resetReq = s.resetReq := rfl
@[simp] theorem State.loadD_schedule (v : Word) : (s.loadD v).schedule = s.schedule := rfl
@[simp] theorem State.loadD_platform (v : Word) : (s.loadD v).platform = s.platform := rfl
@[simp] theorem State.loadD_mem (v : Word) : (s.loadD v).mem = s.mem := rfl
@[simp] theorem State.loadD_draws (v : Word) : (s.loadD v).draws = s.draws := rfl

@[simp] theorem State.modifyMem_c (md : MemMode) (r : Word) : (s.modifyMem md r).c = s.c :=
  by simp [State.modifyMem]
@[simp] theorem State.modifyMem_x (md : MemMode) (r : Word) : (s.modifyMem md r).x = s.x :=
  by simp [State.modifyMem]
@[simp] theorem State.modifyMem_y (md : MemMode) (r : Word) : (s.modifyMem md r).y = s.y :=
  by simp [State.modifyMem]
@[simp] theorem State.modifyMem_sp (md : MemMode) (r : Word) : (s.modifyMem md r).sp = s.sp :=
  by simp [State.modifyMem]
@[simp] theorem State.modifyMem_d (md : MemMode) (r : Word) : (s.modifyMem md r).d = s.d :=
  by simp [State.modifyMem]
@[simp] theorem State.modifyMem_dbr (md : MemMode) (r : Word) : (s.modifyMem md r).dbr = s.dbr :=
  by simp [State.modifyMem]
@[simp] theorem State.modifyMem_pbr (md : MemMode) (r : Word) : (s.modifyMem md r).pbr = s.pbr :=
  by simp [State.modifyMem]
@[simp] theorem State.modifyMem_pc (md : MemMode) (r : Word) : (s.modifyMem md r).pc = s.pc :=
  by simp [State.modifyMem]
@[simp] theorem State.modifyMem_e (md : MemMode) (r : Word) : (s.modifyMem md r).e = s.e :=
  by simp [State.modifyMem]
@[simp] theorem State.modifyMem_run (md : MemMode) (r : Word) : (s.modifyMem md r).run = s.run :=
  by simp [State.modifyMem]
@[simp] theorem State.modifyMem_nmiPending (md : MemMode) (r : Word) : (s.modifyMem md r).nmiPending = s.nmiPending :=
  by simp [State.modifyMem]
@[simp] theorem State.modifyMem_irqLine (md : MemMode) (r : Word) : (s.modifyMem md r).irqLine = s.irqLine :=
  by simp [State.modifyMem]
@[simp] theorem State.modifyMem_abortReq (md : MemMode) (r : Word) : (s.modifyMem md r).abortReq = s.abortReq :=
  by simp [State.modifyMem]
@[simp] theorem State.modifyMem_resetReq (md : MemMode) (r : Word) : (s.modifyMem md r).resetReq = s.resetReq :=
  by simp [State.modifyMem]
@[simp] theorem State.modifyMem_schedule (md : MemMode) (r : Word) : (s.modifyMem md r).schedule = s.schedule :=
  by simp [State.modifyMem]
@[simp] theorem State.modifyMem_platform (md : MemMode) (r : Word) : (s.modifyMem md r).platform = s.platform :=
  by simp [State.modifyMem]
@[simp] theorem State.modifyMem_draws (md : MemMode) (r : Word) : (s.modifyMem md r).draws = s.draws :=
  by simp [State.modifyMem]

@[simp] theorem State.testZero_c (b : Word) : (s.testZero b).c = s.c := rfl
@[simp] theorem State.testZero_x (b : Word) : (s.testZero b).x = s.x := rfl
@[simp] theorem State.testZero_y (b : Word) : (s.testZero b).y = s.y := rfl
@[simp] theorem State.testZero_sp (b : Word) : (s.testZero b).sp = s.sp := rfl
@[simp] theorem State.testZero_d (b : Word) : (s.testZero b).d = s.d := rfl
@[simp] theorem State.testZero_dbr (b : Word) : (s.testZero b).dbr = s.dbr := rfl
@[simp] theorem State.testZero_pbr (b : Word) : (s.testZero b).pbr = s.pbr := rfl
@[simp] theorem State.testZero_pc (b : Word) : (s.testZero b).pc = s.pc := rfl
@[simp] theorem State.testZero_e (b : Word) : (s.testZero b).e = s.e := rfl
@[simp] theorem State.testZero_run (b : Word) : (s.testZero b).run = s.run := rfl
@[simp] theorem State.testZero_nmiPending (b : Word) : (s.testZero b).nmiPending = s.nmiPending := rfl
@[simp] theorem State.testZero_irqLine (b : Word) : (s.testZero b).irqLine = s.irqLine := rfl
@[simp] theorem State.testZero_abortReq (b : Word) : (s.testZero b).abortReq = s.abortReq := rfl
@[simp] theorem State.testZero_resetReq (b : Word) : (s.testZero b).resetReq = s.resetReq := rfl
@[simp] theorem State.testZero_schedule (b : Word) : (s.testZero b).schedule = s.schedule := rfl
@[simp] theorem State.testZero_platform (b : Word) : (s.testZero b).platform = s.platform := rfl
@[simp] theorem State.testZero_mem (b : Word) : (s.testZero b).mem = s.mem := rfl
@[simp] theorem State.testZero_draws (b : Word) : (s.testZero b).draws = s.draws := rfl

@[simp] theorem State.testBits_c (b : Word) : (s.testBits b).c = s.c := rfl
@[simp] theorem State.testBits_x (b : Word) : (s.testBits b).x = s.x := rfl
@[simp] theorem State.testBits_y (b : Word) : (s.testBits b).y = s.y := rfl
@[simp] theorem State.testBits_sp (b : Word) : (s.testBits b).sp = s.sp := rfl
@[simp] theorem State.testBits_d (b : Word) : (s.testBits b).d = s.d := rfl
@[simp] theorem State.testBits_dbr (b : Word) : (s.testBits b).dbr = s.dbr := rfl
@[simp] theorem State.testBits_pbr (b : Word) : (s.testBits b).pbr = s.pbr := rfl
@[simp] theorem State.testBits_pc (b : Word) : (s.testBits b).pc = s.pc := rfl
@[simp] theorem State.testBits_e (b : Word) : (s.testBits b).e = s.e := rfl
@[simp] theorem State.testBits_run (b : Word) : (s.testBits b).run = s.run := rfl
@[simp] theorem State.testBits_nmiPending (b : Word) : (s.testBits b).nmiPending = s.nmiPending := rfl
@[simp] theorem State.testBits_irqLine (b : Word) : (s.testBits b).irqLine = s.irqLine := rfl
@[simp] theorem State.testBits_abortReq (b : Word) : (s.testBits b).abortReq = s.abortReq := rfl
@[simp] theorem State.testBits_resetReq (b : Word) : (s.testBits b).resetReq = s.resetReq := rfl
@[simp] theorem State.testBits_schedule (b : Word) : (s.testBits b).schedule = s.schedule := rfl
@[simp] theorem State.testBits_platform (b : Word) : (s.testBits b).platform = s.platform := rfl
@[simp] theorem State.testBits_mem (b : Word) : (s.testBits b).mem = s.mem := rfl
@[simp] theorem State.testBits_draws (b : Word) : (s.testBits b).draws = s.draws := rfl

@[simp] theorem State.testAndWrite_c (md : MemMode) (r : Word) : (s.testAndWrite md r).c = s.c :=
  by simp [State.testAndWrite]
@[simp] theorem State.testAndWrite_x (md : MemMode) (r : Word) : (s.testAndWrite md r).x = s.x :=
  by simp [State.testAndWrite]
@[simp] theorem State.testAndWrite_y (md : MemMode) (r : Word) : (s.testAndWrite md r).y = s.y :=
  by simp [State.testAndWrite]
@[simp] theorem State.testAndWrite_sp (md : MemMode) (r : Word) : (s.testAndWrite md r).sp = s.sp :=
  by simp [State.testAndWrite]
@[simp] theorem State.testAndWrite_d (md : MemMode) (r : Word) : (s.testAndWrite md r).d = s.d :=
  by simp [State.testAndWrite]
@[simp] theorem State.testAndWrite_dbr (md : MemMode) (r : Word) : (s.testAndWrite md r).dbr = s.dbr :=
  by simp [State.testAndWrite]
@[simp] theorem State.testAndWrite_pbr (md : MemMode) (r : Word) : (s.testAndWrite md r).pbr = s.pbr :=
  by simp [State.testAndWrite]
@[simp] theorem State.testAndWrite_pc (md : MemMode) (r : Word) : (s.testAndWrite md r).pc = s.pc :=
  by simp [State.testAndWrite]
@[simp] theorem State.testAndWrite_e (md : MemMode) (r : Word) : (s.testAndWrite md r).e = s.e :=
  by simp [State.testAndWrite]
@[simp] theorem State.testAndWrite_run (md : MemMode) (r : Word) : (s.testAndWrite md r).run = s.run :=
  by simp [State.testAndWrite]
@[simp] theorem State.testAndWrite_nmiPending (md : MemMode) (r : Word) : (s.testAndWrite md r).nmiPending = s.nmiPending :=
  by simp [State.testAndWrite]
@[simp] theorem State.testAndWrite_irqLine (md : MemMode) (r : Word) : (s.testAndWrite md r).irqLine = s.irqLine :=
  by simp [State.testAndWrite]
@[simp] theorem State.testAndWrite_abortReq (md : MemMode) (r : Word) : (s.testAndWrite md r).abortReq = s.abortReq :=
  by simp [State.testAndWrite]
@[simp] theorem State.testAndWrite_resetReq (md : MemMode) (r : Word) : (s.testAndWrite md r).resetReq = s.resetReq :=
  by simp [State.testAndWrite]
@[simp] theorem State.testAndWrite_schedule (md : MemMode) (r : Word) : (s.testAndWrite md r).schedule = s.schedule :=
  by simp [State.testAndWrite]
@[simp] theorem State.testAndWrite_platform (md : MemMode) (r : Word) : (s.testAndWrite md r).platform = s.platform :=
  by simp [State.testAndWrite]
@[simp] theorem State.testAndWrite_draws (md : MemMode) (r : Word) : (s.testAndWrite md r).draws = s.draws :=
  by simp [State.testAndWrite]

@[simp] theorem State.shiftAcc_x (op : ShiftOp) : (s.shiftAcc op).x = s.x := rfl
@[simp] theorem State.shiftAcc_y (op : ShiftOp) : (s.shiftAcc op).y = s.y := rfl
@[simp] theorem State.shiftAcc_sp (op : ShiftOp) : (s.shiftAcc op).sp = s.sp := rfl
@[simp] theorem State.shiftAcc_d (op : ShiftOp) : (s.shiftAcc op).d = s.d := rfl
@[simp] theorem State.shiftAcc_dbr (op : ShiftOp) : (s.shiftAcc op).dbr = s.dbr := rfl
@[simp] theorem State.shiftAcc_pbr (op : ShiftOp) : (s.shiftAcc op).pbr = s.pbr := rfl
@[simp] theorem State.shiftAcc_pc (op : ShiftOp) : (s.shiftAcc op).pc = s.pc := rfl
@[simp] theorem State.shiftAcc_e (op : ShiftOp) : (s.shiftAcc op).e = s.e := rfl
@[simp] theorem State.shiftAcc_run (op : ShiftOp) : (s.shiftAcc op).run = s.run := rfl
@[simp] theorem State.shiftAcc_nmiPending (op : ShiftOp) : (s.shiftAcc op).nmiPending = s.nmiPending := rfl
@[simp] theorem State.shiftAcc_irqLine (op : ShiftOp) : (s.shiftAcc op).irqLine = s.irqLine := rfl
@[simp] theorem State.shiftAcc_abortReq (op : ShiftOp) : (s.shiftAcc op).abortReq = s.abortReq := rfl
@[simp] theorem State.shiftAcc_resetReq (op : ShiftOp) : (s.shiftAcc op).resetReq = s.resetReq := rfl
@[simp] theorem State.shiftAcc_schedule (op : ShiftOp) : (s.shiftAcc op).schedule = s.schedule := rfl
@[simp] theorem State.shiftAcc_platform (op : ShiftOp) : (s.shiftAcc op).platform = s.platform := rfl
@[simp] theorem State.shiftAcc_mem (op : ShiftOp) : (s.shiftAcc op).mem = s.mem := rfl
@[simp] theorem State.shiftAcc_draws (op : ShiftOp) : (s.shiftAcc op).draws = s.draws := rfl

@[simp] theorem State.shiftMem_c (op : ShiftOp) (md : MemMode) : (s.shiftMem op md).c = s.c :=
  by simp [State.shiftMem]
@[simp] theorem State.shiftMem_x (op : ShiftOp) (md : MemMode) : (s.shiftMem op md).x = s.x :=
  by simp [State.shiftMem]
@[simp] theorem State.shiftMem_y (op : ShiftOp) (md : MemMode) : (s.shiftMem op md).y = s.y :=
  by simp [State.shiftMem]
@[simp] theorem State.shiftMem_sp (op : ShiftOp) (md : MemMode) : (s.shiftMem op md).sp = s.sp :=
  by simp [State.shiftMem]
@[simp] theorem State.shiftMem_d (op : ShiftOp) (md : MemMode) : (s.shiftMem op md).d = s.d :=
  by simp [State.shiftMem]
@[simp] theorem State.shiftMem_dbr (op : ShiftOp) (md : MemMode) : (s.shiftMem op md).dbr = s.dbr :=
  by simp [State.shiftMem]
@[simp] theorem State.shiftMem_pbr (op : ShiftOp) (md : MemMode) : (s.shiftMem op md).pbr = s.pbr :=
  by simp [State.shiftMem]
@[simp] theorem State.shiftMem_pc (op : ShiftOp) (md : MemMode) : (s.shiftMem op md).pc = s.pc :=
  by simp [State.shiftMem]
@[simp] theorem State.shiftMem_e (op : ShiftOp) (md : MemMode) : (s.shiftMem op md).e = s.e :=
  by simp [State.shiftMem]
@[simp] theorem State.shiftMem_run (op : ShiftOp) (md : MemMode) : (s.shiftMem op md).run = s.run :=
  by simp [State.shiftMem]
@[simp] theorem State.shiftMem_nmiPending (op : ShiftOp) (md : MemMode) : (s.shiftMem op md).nmiPending = s.nmiPending :=
  by simp [State.shiftMem]
@[simp] theorem State.shiftMem_irqLine (op : ShiftOp) (md : MemMode) : (s.shiftMem op md).irqLine = s.irqLine :=
  by simp [State.shiftMem]
@[simp] theorem State.shiftMem_abortReq (op : ShiftOp) (md : MemMode) : (s.shiftMem op md).abortReq = s.abortReq :=
  by simp [State.shiftMem]
@[simp] theorem State.shiftMem_resetReq (op : ShiftOp) (md : MemMode) : (s.shiftMem op md).resetReq = s.resetReq :=
  by simp [State.shiftMem]
@[simp] theorem State.shiftMem_schedule (op : ShiftOp) (md : MemMode) : (s.shiftMem op md).schedule = s.schedule :=
  by simp [State.shiftMem]
@[simp] theorem State.shiftMem_platform (op : ShiftOp) (md : MemMode) : (s.shiftMem op md).platform = s.platform :=
  by simp [State.shiftMem]
@[simp] theorem State.shiftMem_draws (op : ShiftOp) (md : MemMode) : (s.shiftMem op md).draws = s.draws :=
  by simp [State.shiftMem]

@[simp] theorem State.moveByte_sp (dir : Word) (dst src : Byte) : (s.moveByte dir dst src).sp = s.sp := rfl
@[simp] theorem State.moveByte_d (dir : Word) (dst src : Byte) : (s.moveByte dir dst src).d = s.d := rfl
@[simp] theorem State.moveByte_pbr (dir : Word) (dst src : Byte) : (s.moveByte dir dst src).pbr = s.pbr :=
  rfl
@[simp] theorem State.moveByte_p (dir : Word) (dst src : Byte) : (s.moveByte dir dst src).p = s.p := rfl
@[simp] theorem State.moveByte_e (dir : Word) (dst src : Byte) : (s.moveByte dir dst src).e = s.e := rfl
@[simp] theorem State.moveByte_run (dir : Word) (dst src : Byte) : (s.moveByte dir dst src).run = s.run :=
  rfl
@[simp] theorem State.moveByte_nmiPending (dir : Word) (dst src : Byte) : (s.moveByte dir dst src).nmiPending = s.nmiPending :=
  rfl
@[simp] theorem State.moveByte_irqLine (dir : Word) (dst src : Byte) : (s.moveByte dir dst src).irqLine = s.irqLine :=
  rfl
@[simp] theorem State.moveByte_abortReq (dir : Word) (dst src : Byte) : (s.moveByte dir dst src).abortReq = s.abortReq :=
  rfl
@[simp] theorem State.moveByte_resetReq (dir : Word) (dst src : Byte) : (s.moveByte dir dst src).resetReq = s.resetReq :=
  rfl
@[simp] theorem State.moveByte_schedule (dir : Word) (dst src : Byte) : (s.moveByte dir dst src).schedule = s.schedule :=
  rfl
@[simp] theorem State.moveByte_platform (dir : Word) (dst src : Byte) : (s.moveByte dir dst src).platform = s.platform :=
  rfl
@[simp] theorem State.moveByte_draws (dir : Word) (dst src : Byte) : (s.moveByte dir dst src).draws = s.draws :=
  rfl

@[simp] theorem State.swapAccBytes_x : (s.swapAccBytes).x = s.x := rfl
@[simp] theorem State.swapAccBytes_y : (s.swapAccBytes).y = s.y := rfl
@[simp] theorem State.swapAccBytes_sp : (s.swapAccBytes).sp = s.sp := rfl
@[simp] theorem State.swapAccBytes_d : (s.swapAccBytes).d = s.d := rfl
@[simp] theorem State.swapAccBytes_dbr : (s.swapAccBytes).dbr = s.dbr := rfl
@[simp] theorem State.swapAccBytes_pbr : (s.swapAccBytes).pbr = s.pbr := rfl
@[simp] theorem State.swapAccBytes_pc : (s.swapAccBytes).pc = s.pc := rfl
@[simp] theorem State.swapAccBytes_e : (s.swapAccBytes).e = s.e := rfl
@[simp] theorem State.swapAccBytes_run : (s.swapAccBytes).run = s.run := rfl
@[simp] theorem State.swapAccBytes_nmiPending : (s.swapAccBytes).nmiPending = s.nmiPending := rfl
@[simp] theorem State.swapAccBytes_irqLine : (s.swapAccBytes).irqLine = s.irqLine := rfl
@[simp] theorem State.swapAccBytes_abortReq : (s.swapAccBytes).abortReq = s.abortReq := rfl
@[simp] theorem State.swapAccBytes_resetReq : (s.swapAccBytes).resetReq = s.resetReq := rfl
@[simp] theorem State.swapAccBytes_schedule : (s.swapAccBytes).schedule = s.schedule := rfl
@[simp] theorem State.swapAccBytes_platform : (s.swapAccBytes).platform = s.platform := rfl
@[simp] theorem State.swapAccBytes_mem : (s.swapAccBytes).mem = s.mem := rfl
@[simp] theorem State.swapAccBytes_draws : (s.swapAccBytes).draws = s.draws := rfl

@[simp] theorem State.returnNear_c : (s.returnNear).c = s.c := by simp [State.returnNear]
@[simp] theorem State.returnNear_x : (s.returnNear).x = s.x := by simp [State.returnNear]
@[simp] theorem State.returnNear_y : (s.returnNear).y = s.y := by simp [State.returnNear]
@[simp] theorem State.returnNear_d : (s.returnNear).d = s.d := by simp [State.returnNear]
@[simp] theorem State.returnNear_dbr : (s.returnNear).dbr = s.dbr := by simp [State.returnNear]
@[simp] theorem State.returnNear_pbr : (s.returnNear).pbr = s.pbr := by simp [State.returnNear]
@[simp] theorem State.returnNear_p : (s.returnNear).p = s.p := by simp [State.returnNear]
@[simp] theorem State.returnNear_e : (s.returnNear).e = s.e := by simp [State.returnNear]
@[simp] theorem State.returnNear_run : (s.returnNear).run = s.run := by simp [State.returnNear]
@[simp] theorem State.returnNear_nmiPending : (s.returnNear).nmiPending = s.nmiPending :=
  by simp [State.returnNear]
@[simp] theorem State.returnNear_irqLine : (s.returnNear).irqLine = s.irqLine := by simp [State.returnNear]
@[simp] theorem State.returnNear_abortReq : (s.returnNear).abortReq = s.abortReq :=
  by simp [State.returnNear]
@[simp] theorem State.returnNear_resetReq : (s.returnNear).resetReq = s.resetReq :=
  by simp [State.returnNear]
@[simp] theorem State.returnNear_schedule : (s.returnNear).schedule = s.schedule :=
  by simp [State.returnNear]
@[simp] theorem State.returnNear_platform : (s.returnNear).platform = s.platform :=
  by simp [State.returnNear]
@[simp] theorem State.returnNear_mem : (s.returnNear).mem = s.mem := by simp [State.returnNear]
@[simp] theorem State.returnNear_draws : (s.returnNear).draws = s.draws := by simp [State.returnNear]

@[simp] theorem State.returnLong_c : (s.returnLong).c = s.c := by simp [State.returnLong]
@[simp] theorem State.returnLong_x : (s.returnLong).x = s.x := by simp [State.returnLong]
@[simp] theorem State.returnLong_y : (s.returnLong).y = s.y := by simp [State.returnLong]
@[simp] theorem State.returnLong_d : (s.returnLong).d = s.d := by simp [State.returnLong]
@[simp] theorem State.returnLong_dbr : (s.returnLong).dbr = s.dbr := by simp [State.returnLong]
@[simp] theorem State.returnLong_p : (s.returnLong).p = s.p := by simp [State.returnLong]
@[simp] theorem State.returnLong_e : (s.returnLong).e = s.e := by simp [State.returnLong]
@[simp] theorem State.returnLong_run : (s.returnLong).run = s.run := by simp [State.returnLong]
@[simp] theorem State.returnLong_nmiPending : (s.returnLong).nmiPending = s.nmiPending :=
  by simp [State.returnLong]
@[simp] theorem State.returnLong_irqLine : (s.returnLong).irqLine = s.irqLine := by simp [State.returnLong]
@[simp] theorem State.returnLong_abortReq : (s.returnLong).abortReq = s.abortReq :=
  by simp [State.returnLong]
@[simp] theorem State.returnLong_resetReq : (s.returnLong).resetReq = s.resetReq :=
  by simp [State.returnLong]
@[simp] theorem State.returnLong_schedule : (s.returnLong).schedule = s.schedule :=
  by simp [State.returnLong]
@[simp] theorem State.returnLong_platform : (s.returnLong).platform = s.platform :=
  by simp [State.returnLong]
@[simp] theorem State.returnLong_mem : (s.returnLong).mem = s.mem := by simp [State.returnLong]
@[simp] theorem State.returnLong_draws : (s.returnLong).draws = s.draws := by simp [State.returnLong]

@[simp] theorem State.returnFromInterrupt_c : (s.returnFromInterrupt).c = s.c :=
  by cases h : s.e <;> simp [State.returnFromInterrupt, h]
@[simp] theorem State.returnFromInterrupt_d : (s.returnFromInterrupt).d = s.d :=
  by cases h : s.e <;> simp [State.returnFromInterrupt, h]
@[simp] theorem State.returnFromInterrupt_dbr : (s.returnFromInterrupt).dbr = s.dbr :=
  by cases h : s.e <;> simp [State.returnFromInterrupt, h]
@[simp] theorem State.returnFromInterrupt_e : (s.returnFromInterrupt).e = s.e :=
  by cases h : s.e <;> simp [State.returnFromInterrupt, h]
@[simp] theorem State.returnFromInterrupt_run : (s.returnFromInterrupt).run = s.run :=
  by cases h : s.e <;> simp [State.returnFromInterrupt, h]
@[simp] theorem State.returnFromInterrupt_nmiPending : (s.returnFromInterrupt).nmiPending = s.nmiPending :=
  by cases h : s.e <;> simp [State.returnFromInterrupt, h]
@[simp] theorem State.returnFromInterrupt_irqLine : (s.returnFromInterrupt).irqLine = s.irqLine :=
  by cases h : s.e <;> simp [State.returnFromInterrupt, h]
@[simp] theorem State.returnFromInterrupt_abortReq : (s.returnFromInterrupt).abortReq = s.abortReq :=
  by cases h : s.e <;> simp [State.returnFromInterrupt, h]
@[simp] theorem State.returnFromInterrupt_resetReq : (s.returnFromInterrupt).resetReq = s.resetReq :=
  by cases h : s.e <;> simp [State.returnFromInterrupt, h]
@[simp] theorem State.returnFromInterrupt_schedule : (s.returnFromInterrupt).schedule = s.schedule :=
  by cases h : s.e <;> simp [State.returnFromInterrupt, h]
@[simp] theorem State.returnFromInterrupt_platform : (s.returnFromInterrupt).platform = s.platform :=
  by cases h : s.e <;> simp [State.returnFromInterrupt, h]
@[simp] theorem State.returnFromInterrupt_mem : (s.returnFromInterrupt).mem = s.mem :=
  by cases h : s.e <;> simp [State.returnFromInterrupt, h]
@[simp] theorem State.returnFromInterrupt_draws : (s.returnFromInterrupt).draws = s.draws :=
  by cases h : s.e <;> simp [State.returnFromInterrupt, h]

@[simp] theorem State.pullDbr_c : (s.pullDbr).c = s.c := rfl
@[simp] theorem State.pullDbr_x : (s.pullDbr).x = s.x := rfl
@[simp] theorem State.pullDbr_y : (s.pullDbr).y = s.y := rfl
@[simp] theorem State.pullDbr_d : (s.pullDbr).d = s.d := rfl
@[simp] theorem State.pullDbr_pbr : (s.pullDbr).pbr = s.pbr := rfl
@[simp] theorem State.pullDbr_pc : (s.pullDbr).pc = s.pc := rfl
@[simp] theorem State.pullDbr_e : (s.pullDbr).e = s.e := rfl
@[simp] theorem State.pullDbr_run : (s.pullDbr).run = s.run := rfl
@[simp] theorem State.pullDbr_nmiPending : (s.pullDbr).nmiPending = s.nmiPending := rfl
@[simp] theorem State.pullDbr_irqLine : (s.pullDbr).irqLine = s.irqLine := rfl
@[simp] theorem State.pullDbr_abortReq : (s.pullDbr).abortReq = s.abortReq := rfl
@[simp] theorem State.pullDbr_resetReq : (s.pullDbr).resetReq = s.resetReq := rfl
@[simp] theorem State.pullDbr_schedule : (s.pullDbr).schedule = s.schedule := rfl
@[simp] theorem State.pullDbr_platform : (s.pullDbr).platform = s.platform := rfl
@[simp] theorem State.pullDbr_mem : (s.pullDbr).mem = s.mem := rfl
@[simp] theorem State.pullDbr_draws : (s.pullDbr).draws = s.draws := rfl

@[simp] theorem State.pullD_c : (s.pullD).c = s.c := rfl
@[simp] theorem State.pullD_x : (s.pullD).x = s.x := rfl
@[simp] theorem State.pullD_y : (s.pullD).y = s.y := rfl
@[simp] theorem State.pullD_dbr : (s.pullD).dbr = s.dbr := rfl
@[simp] theorem State.pullD_pbr : (s.pullD).pbr = s.pbr := rfl
@[simp] theorem State.pullD_pc : (s.pullD).pc = s.pc := rfl
@[simp] theorem State.pullD_e : (s.pullD).e = s.e := rfl
@[simp] theorem State.pullD_run : (s.pullD).run = s.run := rfl
@[simp] theorem State.pullD_nmiPending : (s.pullD).nmiPending = s.nmiPending := rfl
@[simp] theorem State.pullD_irqLine : (s.pullD).irqLine = s.irqLine := rfl
@[simp] theorem State.pullD_abortReq : (s.pullD).abortReq = s.abortReq := rfl
@[simp] theorem State.pullD_resetReq : (s.pullD).resetReq = s.resetReq := rfl
@[simp] theorem State.pullD_schedule : (s.pullD).schedule = s.schedule := rfl
@[simp] theorem State.pullD_platform : (s.pullD).platform = s.platform := rfl
@[simp] theorem State.pullD_mem : (s.pullD).mem = s.mem := rfl
@[simp] theorem State.pullD_draws : (s.pullD).draws = s.draws := rfl

@[simp] theorem State.exchangeCE_c : (s.exchangeCE).c = s.c :=
  by cases h : s.flag .c <;> simp [State.exchangeCE, State.forceEmulation, h]
@[simp] theorem State.exchangeCE_d : (s.exchangeCE).d = s.d :=
  by cases h : s.flag .c <;> simp [State.exchangeCE, State.forceEmulation, h]
@[simp] theorem State.exchangeCE_dbr : (s.exchangeCE).dbr = s.dbr :=
  by cases h : s.flag .c <;> simp [State.exchangeCE, State.forceEmulation, h]
@[simp] theorem State.exchangeCE_pbr : (s.exchangeCE).pbr = s.pbr :=
  by cases h : s.flag .c <;> simp [State.exchangeCE, State.forceEmulation, h]
@[simp] theorem State.exchangeCE_pc : (s.exchangeCE).pc = s.pc :=
  by cases h : s.flag .c <;> simp [State.exchangeCE, State.forceEmulation, h]
@[simp] theorem State.exchangeCE_run : (s.exchangeCE).run = s.run :=
  by cases h : s.flag .c <;> simp [State.exchangeCE, State.forceEmulation, h]
@[simp] theorem State.exchangeCE_nmiPending : (s.exchangeCE).nmiPending = s.nmiPending :=
  by cases h : s.flag .c <;> simp [State.exchangeCE, State.forceEmulation, h]
@[simp] theorem State.exchangeCE_irqLine : (s.exchangeCE).irqLine = s.irqLine :=
  by cases h : s.flag .c <;> simp [State.exchangeCE, State.forceEmulation, h]
@[simp] theorem State.exchangeCE_abortReq : (s.exchangeCE).abortReq = s.abortReq :=
  by cases h : s.flag .c <;> simp [State.exchangeCE, State.forceEmulation, h]
@[simp] theorem State.exchangeCE_resetReq : (s.exchangeCE).resetReq = s.resetReq :=
  by cases h : s.flag .c <;> simp [State.exchangeCE, State.forceEmulation, h]
@[simp] theorem State.exchangeCE_schedule : (s.exchangeCE).schedule = s.schedule :=
  by cases h : s.flag .c <;> simp [State.exchangeCE, State.forceEmulation, h]
@[simp] theorem State.exchangeCE_platform : (s.exchangeCE).platform = s.platform :=
  by cases h : s.flag .c <;> simp [State.exchangeCE, State.forceEmulation, h]
@[simp] theorem State.exchangeCE_mem : (s.exchangeCE).mem = s.mem :=
  by cases h : s.flag .c <;> simp [State.exchangeCE, State.forceEmulation, h]
@[simp] theorem State.exchangeCE_draws : (s.exchangeCE).draws = s.draws :=
  by cases h : s.flag .c <;> simp [State.exchangeCE, State.forceEmulation, h]

end Sys2Proof.Machine
end

