-- ==== Sys2Proof/Laws/Memory.lean ====
section
/-! SUPPORT. What the memory operations do: read after write, what a write leaves alone, the canonical form, and
what a byte, a load, a store, a push and a pull say in these terms. -/

namespace Sys2Proof.Machine

/-! ## The list of bytes -/

@[simp] theorem Memory.get_nil (a : Nat) : Memory.get a [] = Memory.unlisted := rfl

theorem Memory.get_cons (a b : Nat) (v : Byte) (m : Memory) :
    Memory.get a ((b, v) :: m) = if a = b then v else Memory.get a m := rfl

theorem Memory.get_erase_same (a : Nat) (m : Memory) : Memory.get a (Memory.erase a m) = Memory.unlisted := by
  induction m with
  | nil => rfl
  | cons cell m ih =>
    obtain ⟨b, w⟩ := cell
    by_cases h : a = b
    · simp [Memory.erase, h]; simpa [h] using ih
    · simp [Memory.erase, Memory.get_cons, h, ih]

theorem Memory.get_erase_other (a k : Nat) (m : Memory) (hk : k ≠ a) :
    Memory.get k (Memory.erase a m) = Memory.get k m := by
  induction m with
  | nil => rfl
  | cons cell m ih =>
    obtain ⟨b, w⟩ := cell
    by_cases h : a = b
    · subst h; simp [Memory.erase, Memory.get_cons, hk, ih]
    · simp [Memory.erase, Memory.get_cons, h, ih]

theorem Memory.get_insert_same (a : Nat) (v : Byte) (m : Memory) : Memory.get a (Memory.insert a v m) = v := by
  induction m with
  | nil => simp [Memory.insert, Memory.get_cons]
  | cons cell m ih =>
    obtain ⟨b, w⟩ := cell
    by_cases h : a < b
    · simp [Memory.insert, Memory.get_cons, h]
    · by_cases hab : a = b <;> simp [Memory.insert, Memory.get_cons, h, hab, ih]

theorem Memory.get_insert_other (a k : Nat) (v : Byte) (m : Memory) (hk : k ≠ a) :
    Memory.get k (Memory.insert a v m) = Memory.get k m := by
  induction m with
  | nil => simp [Memory.insert, Memory.get_cons, hk]
  | cons cell m ih =>
    obtain ⟨b, w⟩ := cell
    by_cases h : a < b
    · simp [Memory.insert, Memory.get_cons, h, hk]
    · by_cases hab : a = b
      · subst hab; simp [Memory.insert, Memory.get_cons, hk]
      · simp [Memory.insert, Memory.get_cons, h, hab, ih]

/-- A read of the address just written gives the value written. -/
@[simp] theorem Memory.get_set_same (a : Nat) (v : Byte) (m : Memory) : Memory.get a (Memory.set a v m) = v := by
  unfold Memory.set
  split
  · next h => rw [h]; exact Memory.get_erase_same a m
  · exact Memory.get_insert_same a v m

/-- A write leaves every other address alone. -/
theorem Memory.get_set_other (a k : Nat) (v : Byte) (m : Memory) (hk : k ≠ a) :
    Memory.get k (Memory.set a v m) = Memory.get k m := by
  unfold Memory.set
  split
  · exact Memory.get_erase_other a k m hk
  · exact Memory.get_insert_other a k v m hk

/-! ## The canonical form -/

theorem Memory.wfFrom_cons (lo a : Nat) (v : Byte) (m : Memory) :
    Memory.wfFrom lo ((a, v) :: m) = true ↔
      lo ≤ a ∧ a < 2 ^ 24 ∧ v ≠ Memory.unlisted ∧ Memory.wfFrom (a + 1) m = true := by
  simp [Memory.wfFrom, and_assoc]

theorem Memory.wfFrom_mono (lo lo' : Nat) (m : Memory) (h : lo' ≤ lo) (hm : Memory.wfFrom lo m = true) :
    Memory.wfFrom lo' m = true := by
  cases m with
  | nil => rfl
  | cons cell m =>
    obtain ⟨b, w⟩ := cell
    rw [Memory.wfFrom_cons] at hm ⊢
    exact ⟨by omega, hm.2⟩

theorem Memory.wfFrom_erase (lo a : Nat) (m : Memory) (hm : Memory.wfFrom lo m = true) :
    Memory.wfFrom lo (Memory.erase a m) = true := by
  induction m generalizing lo with
  | nil => rfl
  | cons cell m ih =>
    obtain ⟨b, w⟩ := cell
    rw [Memory.wfFrom_cons] at hm
    obtain ⟨h1, h2, h3, h4⟩ := hm
    by_cases h : a = b
    · simp only [Memory.erase, h, if_true]
      exact h ▸ ih lo (Memory.wfFrom_mono (b + 1) lo m (by omega) h4)
    · simp only [Memory.erase, h, if_false]
      rw [Memory.wfFrom_cons]
      exact ⟨h1, h2, h3, ih (b + 1) h4⟩

theorem Memory.wfFrom_insert (lo a : Nat) (v : Byte) (m : Memory) (hm : Memory.wfFrom lo m = true)
    (hlo : lo ≤ a) (ha : a < 2 ^ 24) (hv : v ≠ Memory.unlisted) :
    Memory.wfFrom lo (Memory.insert a v m) = true := by
  induction m generalizing lo with
  | nil => exact (Memory.wfFrom_cons lo a v []).mpr ⟨hlo, ha, hv, rfl⟩
  | cons cell m ih =>
    obtain ⟨b, w⟩ := cell
    have hm' := (Memory.wfFrom_cons lo b w m).mp hm
    obtain ⟨h1, h2, h3, h4⟩ := hm'
    by_cases h : a < b
    · simp only [Memory.insert, h, if_true]
      exact (Memory.wfFrom_cons _ _ _ _).mpr
        ⟨hlo, ha, hv, (Memory.wfFrom_cons _ _ _ _).mpr ⟨by omega, h2, h3, h4⟩⟩
    · by_cases hab : a = b
      · simp only [Memory.insert, hab, if_true, if_false, lt_irrefl]
        exact (Memory.wfFrom_cons _ _ _ _).mpr ⟨h1, h2, hv, h4⟩
      · simp only [Memory.insert, h, hab, if_false]
        exact (Memory.wfFrom_cons _ _ _ _).mpr ⟨h1, h2, h3, ih (b + 1) h4 (by omega)⟩

/-- A write inside the address space keeps the canonical form. -/
theorem Memory.wf_set (a : Nat) (v : Byte) (m : Memory) (ha : a < 2 ^ 24) (hm : Memory.wf m = true) :
    Memory.wf (Memory.set a v m) = true := by
  unfold Memory.set Memory.wf at *
  split
  · exact Memory.wfFrom_erase 0 a m hm
  · next hv => exact Memory.wfFrom_insert 0 a v m hm (Nat.zero_le a) ha hv

theorem Memory.get_below (lo k : Nat) (m : Memory) (hm : Memory.wfFrom lo m = true) (hk : k < lo) :
    Memory.get k m = Memory.unlisted := by
  induction m generalizing lo with
  | nil => rfl
  | cons cell m ih =>
    obtain ⟨b, w⟩ := cell
    obtain ⟨h1, -, -, h4⟩ := (Memory.wfFrom_cons lo b w m).mp hm
    rw [Memory.get_cons, if_neg (by omega)]
    exact ih (b + 1) h4 (by omega)

theorem Memory.eq_of_get (lo : Nat) (m m' : Memory) (hm : Memory.wfFrom lo m = true)
    (hm' : Memory.wfFrom lo m' = true) (h : ∀ k, Memory.get k m = Memory.get k m') : m = m' := by
  induction m generalizing lo m' with
  | nil =>
    cases m' with
    | nil => rfl
    | cons cell m' =>
      obtain ⟨b, w⟩ := cell
      have := h b
      rw [Memory.get_cons, if_pos rfl] at this
      exact absurd this.symm ((Memory.wfFrom_cons lo b w m').mp hm').2.2.1
  | cons cell m ih =>
    obtain ⟨b, w⟩ := cell
    obtain ⟨h1, h2, h3, h4⟩ := (Memory.wfFrom_cons lo b w m).mp hm
    cases m' with
    | nil =>
      have := h b
      rw [Memory.get_cons, if_pos rfl] at this
      exact absurd this h3
    | cons cell' m' =>
      obtain ⟨b', w'⟩ := cell'
      obtain ⟨h1', h2', h3', h4'⟩ := (Memory.wfFrom_cons lo b' w' m').mp hm'
      have hb : b = b' := by
        rcases Nat.lt_trichotomy b b' with hlt | heq | hgt
        · have := h b
          rw [Memory.get_cons, if_pos rfl, Memory.get_cons, if_neg (by omega),
            Memory.get_below (b' + 1) b m' h4' (by omega)] at this
          exact absurd this h3
        · exact heq
        · have := h b'
          rw [Memory.get_cons, if_neg (by omega), Memory.get_below (b + 1) b' m h4 (by omega),
            Memory.get_cons, if_pos rfl] at this
          exact absurd this.symm h3'
      subst hb
      have hw : w = w' := by simpa [Memory.get_cons] using h b
      subst hw
      refine congrArg _ (ih (b + 1) m' h4 h4' fun k => ?_)
      by_cases hk : k = b
      · rw [hk, Memory.get_below (b + 1) b m h4 (by omega), Memory.get_below (b + 1) b m' h4' (by omega)]
      · simpa [Memory.get_cons, hk] using h k

/-- Two memories in canonical form that read alike are the same list. -/
theorem Memory.ext_of_wf (m m' : Memory) (hm : Memory.wf m = true) (hm' : Memory.wf m' = true)
    (h : ∀ k, Memory.get k m = Memory.get k m') : m = m' := Memory.eq_of_get 0 m m' hm hm' h

/-! ## One byte of the machine's memory -/

theorem writeMem_wf (map : List Region) (a : Addr) (v : Byte) (m : Memory) (hm : Memory.wf m = true) :
    Memory.wf (writeMem map a v m) = true := by
  unfold writeMem
  split
  · exact Memory.wf_set a.toNat v m a.isLt hm
  all_goals exact hm

@[simp] theorem State.writeByte_mem (s : State) (a : Addr) (v : Byte) :
    (s.writeByte a v).mem = writeMem s.platform.memMap a v s.mem := rfl

/-- What a read depends on. -/
theorem State.readByte_congr (s t : State) (a : Addr) (hp : t.platform = s.platform) (hd : t.draws = s.draws)
    (hm : Memory.get a.toNat t.mem = Memory.get a.toNat s.mem) : t.readByte a = s.readByte a := by
  simp [State.readByte, hp, hd, hm]

/-- A write leaves every other byte alone (R9). -/
theorem State.readByte_writeByte_other (s : State) (a k : Addr) (v : Byte) (hk : k ≠ a) :
    (s.writeByte a v).readByte k = s.readByte k := by
  refine State.readByte_congr _ _ _ (State.writeByte_platform s a v) (State.writeByte_draws s a v) ?_
  have hn : k.toNat ≠ a.toNat := fun h => hk (BitVec.eq_of_toNat_eq h)
  simp only [State.writeByte_mem, writeMem]
  split
  · exact Memory.get_set_other _ _ _ _ hn
  all_goals rfl

/-- RAM reads as last written (R79). -/
theorem State.readByte_writeByte_ram (s : State) (a : Addr) (v : Byte)
    (h : kindAt s.platform.memMap a.toNat = .ram) : (s.writeByte a v).readByte a = v := by
  simp [State.readByte, writeMem, h]

/-- Where there is no RAM a write changes nothing (R79). -/
theorem State.writeByte_of_not_ram (s : State) (a : Addr) (v : Byte)
    (h : kindAt s.platform.memMap a.toNat ≠ .ram) : s.writeByte a v = s := by
  unfold State.writeByte writeMem
  split
  · contradiction
  all_goals rfl

/-! ## Stores, pushes and pulls -/

/-- A store leaves every byte outside its own addresses alone (R130). -/
theorem State.readByte_store_other (s : State) (ea : Ea) (w : Width) (v : Word) (k : Addr)
    (hk : k ∉ ea.addrs w) : (s.store ea w v).readByte k = s.readByte k := by
  cases w with
  | byte => exact State.readByte_writeByte_other s _ k _ (by simpa [Ea.addrs] using hk)
  | word =>
    simp only [Ea.addrs, List.mem_cons, List.not_mem_nil, or_false, not_or] at hk
    exact (State.readByte_writeByte_other _ _ k _ hk.2).trans (State.readByte_writeByte_other s _ k _ hk.1)

/-- A store keeps memory canonical. -/
theorem State.store_wf (s : State) (ea : Ea) (w : Width) (v : Word) (h : Memory.wf s.mem = true) :
    Memory.wf (s.store ea w v).mem = true := by
  cases w with
  | byte => exact writeMem_wf _ _ _ _ h
  | word => exact writeMem_wf _ _ _ _ (writeMem_wf _ _ _ _ h)

/-- `Push8` is the byte at `$00:S` and the new S, nothing else (R280). -/
theorem State.push8_eq (s : State) (k : StackRule) (v : Byte) :
    s.push8 k v = { s with mem := writeMem s.platform.memMap s.stackTop v s.mem, sp := s.spDown k } := rfl

/-- `Push8` leaves every other byte alone. -/
theorem State.readByte_push8_other (s : State) (k : StackRule) (v : Byte) (a : Addr) (ha : a ≠ s.stackTop) :
    (s.push8 k v).readByte a = s.readByte a :=
  State.readByte_writeByte_other s s.stackTop a v ha

theorem State.push8_wf (s : State) (k : StackRule) (v : Byte) (h : Memory.wf s.mem = true) :
    Memory.wf (s.push8 k v).mem = true := writeMem_wf _ _ _ _ h

theorem State.push16_wf (s : State) (k : StackRule) (v : Word) (h : Memory.wf s.mem = true) :
    Memory.wf (s.push16 k v).mem = true := State.push8_wf _ k _ (State.push8_wf s k _ h)

theorem State.pushW_wf (s : State) (k : StackRule) (w : Width) (v : Word) (h : Memory.wf s.mem = true) :
    Memory.wf (s.pushW k w v).mem = true := by
  cases w with
  | byte => exact State.push8_wf s k _ h
  | word => exact State.push16_wf s k _ h

/-- The frame of an interrupt keeps memory canonical. -/
theorem State.pushFrame_wf (s : State) (k : IntKind) (h : Memory.wf s.mem = true) :
    Memory.wf (s.pushFrame k).mem = true := by
  unfold State.pushFrame
  refine State.push8_wf _ _ _ (State.push16_wf _ _ _ ?_)
  split
  · exact h
  · exact State.push8_wf s _ _ h

/-- A pull changes S alone (R281). -/
theorem State.popped_eq (s : State) (k : StackRule) : s.popped k = { s with sp := s.spUp k } := rfl

@[simp] theorem State.readByte_popped (s : State) (k : StackRule) (a : Addr) :
    (s.popped k).readByte a = s.readByte a := rfl

end Sys2Proof.Machine
end

