-- ==== Sys2Proof/Laws/Flags.lean ====
section
/-! SUPPORT. What the flag operations do: reading a flag after P was written, the widths, and what a read of
memory sees of it. -/

namespace Sys2Proof.Machine

/-- Setting one bit of a byte sets that bit and leaves the others. -/
theorem getLsbD_setBit (p : Byte) (k j : Nat) (b : Bool) (hk : k < 8) :
    (setBit p k b).getLsbD j = if j = k then b else p.getLsbD j := by
  unfold setBit
  by_cases hj : j < 8
  · have hx : j - k = 0 ↔ j ≤ k := by omega
    cases b <;> by_cases hjk : j = k <;> simp [hj, hjk, hk] <;> intros <;> omega
  · have : p.getLsbD j = false := BitVec.getLsbD_of_ge p j (by omega)
    have hjk : j ≠ k := by omega
    cases b <;> simp [hj, hjk, this]

theorem Flag.bit_lt (f : Flag) : f.bit < 8 := by cases f <;> decide

theorem Flag.bit_inj (f g : Flag) : f.bit = g.bit ↔ f = g := by cases f <;> cases g <;> decide

/-- Setting a flag sets that flag and leaves the others (R31). -/
theorem State.flag_setFlag (s : State) (f g : Flag) (b : Bool) :
    (s.setFlag f b).flag g = if g = f then b else s.flag g := by
  simp only [State.flag, State.setFlag, getLsbD_setBit _ _ _ _ f.bit_lt, Flag.bit_inj]

@[simp] theorem State.flag_setFlag_same (s : State) (f : Flag) (b : Bool) : (s.setFlag f b).flag f = b := by
  simp [State.flag_setFlag]

/-- P is its eight flags. -/
theorem State.p_eq_of_flags (s t : State) (h : ∀ f, s.flag f = t.flag f) : s.p = t.p := by
  refine BitVec.eq_of_getLsbD_eq fun i hi => ?_
  have hn := h .n; have hv := h .v; have hm := h .m; have hx := h .x
  have hd := h .d; have hI := h .i; have hz := h .z; have hc := h .c
  simp only [State.flag, Flag.bit] at hn hv hm hx hd hI hz hc
  interval_cases i <;> assumption

/-- `SetNZ` sets N and Z and leaves the other flags (R9). -/
theorem State.flag_setNZ (s : State) (w : Width) (v : Word) (f : Flag) :
    (s.setNZ w v).flag f = if f = .n then w.msb v else if f = .z then isZero w v else s.flag f := by
  simp [State.setNZ, State.flag_setFlag]

/-- A flag read depends on P alone. -/
theorem State.flag_congr (s t : State) (h : s.p = t.p) (f : Flag) : s.flag f = t.flag f := by
  simp [State.flag, h]

/-- The widths depend on P alone. -/
theorem State.wM_congr (s t : State) (h : s.flag .m = t.flag .m) : s.wM = t.wM := by simp [State.wM, h]

theorem State.wX_congr (s t : State) (h : s.flag .x = t.flag .x) : s.wX = t.wX := by simp [State.wX, h]

@[simp] theorem State.readByte_setFlag (s : State) (f : Flag) (b : Bool) (a : Addr) :
    (s.setFlag f b).readByte a = s.readByte a := rfl

@[simp] theorem State.readByte_setNZ (s : State) (w : Width) (v : Word) (a : Addr) :
    (s.setNZ w v).readByte a = s.readByte a := rfl

/-- The bits of P a pull or a mask keeps set in emulation mode (R41). -/
theorem or_mx_m (p : Byte) : (p ||| 0x30).getLsbD 5 = true := by
  rw [BitVec.getLsbD_or]; simp

theorem or_mx_x (p : Byte) : (p ||| 0x30).getLsbD 4 = true := by
  rw [BitVec.getLsbD_or]; simp

/-! ## Bytes of words -/

/-- The bits of two joined bytes. -/
theorem getLsbD_joinBytes (h l : Byte) (i : Nat) :
    (joinBytes h l).getLsbD i = if i < 8 then l.getLsbD i else h.getLsbD (i - 8) :=
  (BitVec.getLsbD_append (x := h) (y := l) (i := i)).trans (by split <;> rfl)

theorem getLsbD_lowByte (v : Word) (i : Nat) : (lowByte v).getLsbD i = (decide (i < 8) && v.getLsbD i) := by
  simp [lowByte]

theorem getLsbD_highByte (v : Word) (i : Nat) :
    (highByte v).getLsbD i = (decide (i < 8) && v.getLsbD (8 + i)) := by
  simp [highByte]

theorem getLsbD_zeroExtend8 (b : Byte) (i : Nat) : (zeroExtend8 b).getLsbD i = b.getLsbD i := by
  simp only [zeroExtend8, BitVec.getLsbD_setWidth]
  by_cases h : i < 16
  · simp [h]
  · simp [h, BitVec.getLsbD_of_ge b i (by omega)]

@[simp] theorem lowByte_joinBytes (h l : Byte) : lowByte (joinBytes h l) = l := by
  refine BitVec.eq_of_getLsbD_eq fun i hi => ?_
  rw [getLsbD_lowByte, getLsbD_joinBytes]; simp [hi]

@[simp] theorem highByte_joinBytes (h l : Byte) : highByte (joinBytes h l) = h := by
  refine BitVec.eq_of_getLsbD_eq fun i hi => ?_
  rw [getLsbD_highByte, getLsbD_joinBytes]; simp [hi]

@[simp] theorem joinBytes_high_low (v : Word) : joinBytes (highByte v) (lowByte v) = v := by
  refine BitVec.eq_of_getLsbD_eq fun i hi => ?_
  rw [getLsbD_joinBytes, getLsbD_lowByte, getLsbD_highByte]
  by_cases h : i < 8
  · simp [h]
  · simp [h, show i - 8 < 8 by omega, show 8 + (i - 8) = i by omega]

@[simp] theorem highByte_zeroExtend8 (b : Byte) : highByte (zeroExtend8 b) = 0 := by
  refine BitVec.eq_of_getLsbD_eq fun i hi => ?_
  rw [getLsbD_highByte, getLsbD_zeroExtend8]; simp

@[simp] theorem lowByte_zeroExtend8 (b : Byte) : lowByte (zeroExtend8 b) = b := by
  refine BitVec.eq_of_getLsbD_eq fun i hi => ?_
  rw [getLsbD_lowByte, getLsbD_zeroExtend8]; simp [hi]

/-- A byte-wide value has no high byte (R23). -/
@[simp] theorem highByte_trunc_byte (v : Word) : highByte (Width.trunc .byte v) = 0 :=
  highByte_zeroExtend8 (lowByte v)

end Sys2Proof.Machine
end

