-- ==== Sys2Proof/Laws/Ops.lean ====
section
/-! SUPPORT. What each shared operation can do, said once: writes, pushes and pulls in the closed form of
Safety.lean, interrupt entry and return, reset, the check between steps. -/

namespace Sys2Proof.Machine

/-! ## Writes -/

theorem Wrote.refl (s : State) : Wrote s s [] := fun _ => rfl

/-- `Wrote` depends on memory, the platform and the draw counter alone. -/
theorem Wrote.congr {s t u : State} {ws : List (Addr × Byte)} (h : Wrote s t ws) (hm : u.mem = t.mem)
    (hp : u.platform = t.platform) (hd : u.draws = t.draws) : Wrote s u ws := fun a =>
  (State.readByte_congr t u a hp hd (by rw [hm])).trans (h a)

/-- One more write. -/
theorem Wrote.writeByte {s t : State} {ws : List (Addr × Byte)} (h : Wrote s t ws)
    (hp : t.platform = s.platform) (a : Addr) (v : Byte) : Wrote s (t.writeByte a v) (ws ++ [(a, v)]) := by
  intro k
  simp only [List.reverse_append, List.reverse_cons, List.reverse_nil, List.nil_append, List.singleton_append,
    List.lookup_cons]
  by_cases hk : k = a
  · subst hk
    simp only [beq_self_eq_true]
    by_cases hr : kindAt s.platform.memMap k.toNat = .ram
    · rw [if_pos hr, State.readByte_writeByte_ram t k v (hp ▸ hr)]
    · rw [if_neg hr, State.writeByte_of_not_ram t k v (hp ▸ hr)]
      have := h k
      revert this
      split
      · rw [if_neg hr]; exact id
      · exact id
  · have hb : (k == a) = false := by simpa using hk
    rw [State.readByte_writeByte_other t a k v hk, hb]
    exact h k

theorem Wrote.store (s : State) (ea : Ea) (w : Width) (v : Word) : Wrote s (s.store ea w v) (storeWrites ea w v) := by
  cases w with
  | byte => exact (Wrote.refl s).writeByte rfl ea.first (lowByte v)
  | word => exact ((Wrote.refl s).writeByte rfl ea.first (lowByte v)).writeByte rfl ea.second (highByte v)

/-! ## The stack -/

theorem neg_ofNat_ne_zero (n : Nat) (h0 : 0 < n) (h : n < 65536) : -BitVec.ofNat 16 n ≠ 0 := by
  intro hn
  have := congrArg BitVec.toNat hn
  simp only [BitVec.toNat_neg, BitVec.toNat_ofNat, BitVec.ofNat_eq_ofNat] at this
  omega

theorem word_add_sub (a b c : Word) : a + (b - c) = a + b - c := by
  rw [BitVec.sub_eq_add_neg, BitVec.sub_eq_add_neg, BitVec.add_assoc]

theorem byte_add_sub (a b c : Byte) : a + (b - c) = a + b - c := by
  rw [BitVec.sub_eq_add_neg, BitVec.sub_eq_add_neg, BitVec.add_assoc]

theorem lowByte_add (a b : Word) : lowByte (a + b) = lowByte a + lowByte b := by
  apply BitVec.eq_of_toNat_eq
  simp [lowByte, BitVec.toNat_add]

theorem lowByte_sub (a b : Word) : lowByte (a - b) = lowByte a - lowByte b := by
  apply BitVec.eq_of_toNat_eq
  simp [lowByte, BitVec.toNat_sub]
  omega

theorem stackSlot_zero (s : State) (k : StackRule) : s.stackSlot k 0 = s.sp := rfl

theorem stackSlot_page (s : State) (n : Word) (hn : n ≠ 0) (he : s.e = true) :
    s.stackSlot .page n = joinBytes 0x01 (lowByte s.sp + lowByte n) := by
  rw [State.stackSlot, if_neg hn, if_pos ⟨he, rfl⟩]

theorem stackSlot_else (s : State) (k : StackRule) (n : Word) (h : ¬ (s.e = true ∧ k = .page)) :
    s.stackSlot k n = s.sp + n := by
  by_cases hn : n = 0
  · simp [State.stackSlot, hn]
  · simp [State.stackSlot, h]

/-- S one byte further down (R280). -/
theorem spDown_slot (s t : State) (k : StackRule) (n : Nat) (h : n < 60000) (he : t.e = s.e)
    (hs : t.sp = s.stackSlot k (-BitVec.ofNat 16 n)) : t.spDown k = s.stackSlot k (-BitVec.ofNat 16 (n + 1)) := by
  have hsub : -BitVec.ofNat 16 (n + 1) = -BitVec.ofNat 16 n - 1 := by
    apply BitVec.eq_of_toNat_eq; simp [BitVec.toNat_neg, BitVec.toNat_sub]; omega
  have h1 := neg_ofNat_ne_zero (n + 1) (by omega) (by omega)
  by_cases hc : s.e = true ∧ k = .page
  · obtain ⟨hse, rfl⟩ := hc
    rw [stackSlot_page s _ h1 hse]
    simp only [State.spDown, he, hse, hs]
    rw [hsub, lowByte_sub, byte_add_sub]
    congr 1
    by_cases h0 : n = 0
    · subst h0; exact congrArg (· - 1) (BitVec.add_zero _).symm
    · rw [stackSlot_page s _ (neg_ofNat_ne_zero n (by omega) (by omega)) hse, lowByte_joinBytes]; rfl
  · rw [stackSlot_else s k _ hc] at hs ⊢
    have : t.spDown k = t.sp - 1 := by
      unfold State.spDown
      rw [he]
      split
      · next h1 => exact absurd ⟨h1, rfl⟩ hc
      · rfl
    rw [this, hs, hsub, word_add_sub]

/-- S one byte further up (R281). -/
theorem spUp_slot (s t : State) (k : StackRule) (n : Nat) (h : n < 60000) (he : t.e = s.e)
    (hs : t.sp = s.stackSlot k (BitVec.ofNat 16 n)) : t.spUp k = s.stackSlot k (BitVec.ofNat 16 (n + 1)) := by
  have hadd : BitVec.ofNat 16 (n + 1) = BitVec.ofNat 16 n + 1 := by
    apply BitVec.eq_of_toNat_eq; simp
  have hne : ∀ m, 0 < m → m < 65536 → BitVec.ofNat 16 m ≠ 0 := by
    intro m h0 hm hz
    have := congrArg BitVec.toNat hz
    simp at this; omega
  by_cases hc : s.e = true ∧ k = .page
  · obtain ⟨hse, rfl⟩ := hc
    rw [stackSlot_page s _ (hne (n + 1) (by omega) (by omega)) hse]
    simp only [State.spUp, he, hse, hs]
    rw [hadd, lowByte_add, ← BitVec.add_assoc]
    congr 1
    by_cases h0 : n = 0
    · subst h0; exact congrArg (· + 1) (BitVec.add_zero _).symm
    · rw [stackSlot_page s _ (hne n (by omega) (by omega)) hse, lowByte_joinBytes]; rfl
  · rw [stackSlot_else s k _ hc] at hs ⊢
    have : t.spUp k = t.sp + 1 := by
      unfold State.spUp
      rw [he]
      split
      · next h1 => exact absurd ⟨h1, rfl⟩ hc
      · rfl
    rw [this, hs, hadd, ← BitVec.add_assoc]

theorem Pushed.refl (s : State) (k : StackRule) : Pushed s s k [] := ⟨fun _ => rfl, rfl⟩

/-- `Pushed` depends on memory, S, the platform and the draw counter alone. -/
theorem Pushed.congr {s t u : State} {k : StackRule} {bs : List Byte} (h : Pushed s t k bs) (hm : u.mem = t.mem)
    (hs : u.sp = t.sp) (hp : u.platform = t.platform) (hd : u.draws = t.draws) : Pushed s u k bs :=
  ⟨h.1.congr hm hp hd, hs.trans h.2⟩

theorem pushWrites_append (s : State) (k : StackRule) (bs : List Byte) (v : Byte) :
    s.pushWrites k (bs ++ [v])
      = s.pushWrites k bs ++ [(joinAddr 0 (s.stackSlot k (-BitVec.ofNat 16 bs.length)), v)] := by
  simp [State.pushWrites, List.zipIdx_append]

/-- One more byte pushed (R280). -/
theorem Pushed.push8 {s t : State} {k : StackRule} {bs : List Byte} (h : Pushed s t k bs) (hl : bs.length < 60000)
    (hp : t.platform = s.platform) (he : t.e = s.e) (v : Byte) : Pushed s (t.push8 k v) k (bs ++ [v]) := by
  refine ⟨?_, ?_⟩
  · rw [pushWrites_append, ← h.2]
    exact (h.1.writeByte hp t.stackTop v).congr rfl rfl rfl
  · rw [List.length_append]
    exact spDown_slot s t k bs.length hl he h.2

/-- `Push16` pushes the high byte, then the low byte (R282). -/
theorem Pushed.push16 {s t : State} {k : StackRule} {bs : List Byte} (h : Pushed s t k bs) (hl : bs.length < 50000)
    (hp : t.platform = s.platform) (he : t.e = s.e) (v : Word) :
    Pushed s (t.push16 k v) k (bs ++ [highByte v, lowByte v]) := by
  have h1 := h.push8 (by omega) hp he (highByte v)
  have h2 := h1.push8 (by simp; omega) hp he (lowByte v)
  rwa [List.append_assoc] at h2

/-- A register pushed at a width (R283). -/
theorem Pushed.pushW (s : State) (k : StackRule) (w : Width) (v : Word) :
    Pushed s (s.pushW k w v) k (pushOrder w v) := by
  cases w with
  | byte => exact (Pushed.refl s k).push8 (by simp) rfl rfl _
  | word => exact (Pushed.refl s k).push16 (by simp) rfl rfl _

/-- What the first, second and third pull find (R281). -/
theorem State.pull8_eq (s : State) (k : StackRule) : s.pull8 k = s.stackByte k 1 := by
  have := spUp_slot s s k 0 (by omega) rfl rfl
  simp only [State.pull8, State.stackTop, State.stackByte, State.popped, this]
  rfl

theorem State.popped_sp (s : State) (k : StackRule) : (s.popped k).sp = s.stackSlot k 1 :=
  spUp_slot s s k 0 (by omega) rfl rfl

theorem State.popped2_sp (s : State) (k : StackRule) : ((s.popped k).popped k).sp = s.stackSlot k 2 :=
  spUp_slot s (s.popped k) k 1 (by omega) rfl (State.popped_sp s k)

theorem State.popped3_sp (s : State) (k : StackRule) : (((s.popped k).popped k).popped k).sp = s.stackSlot k 3 :=
  spUp_slot s ((s.popped k).popped k) k 2 (by omega) rfl (State.popped2_sp s k)

theorem State.popped4_sp (s : State) (k : StackRule) :
    ((((s.popped k).popped k).popped k).popped k).sp = s.stackSlot k 4 :=
  spUp_slot s (((s.popped k).popped k).popped k) k 3 (by omega) rfl (State.popped3_sp s k)

/-- The states after one to four pulls (R281). -/
theorem State.popped1_eq (s : State) (k : StackRule) : s.popped k = { s with sp := s.stackSlot k 1 } :=
  congrArg (fun v => { s with sp := v }) (State.popped_sp s k)

theorem State.popped2_eq (s : State) (k : StackRule) :
    (s.popped k).popped k = { s with sp := s.stackSlot k 2 } :=
  congrArg (fun v => { s with sp := v }) (State.popped2_sp s k)

theorem State.popped3_eq (s : State) (k : StackRule) :
    ((s.popped k).popped k).popped k = { s with sp := s.stackSlot k 3 } :=
  congrArg (fun v => { s with sp := v }) (State.popped3_sp s k)

theorem State.popped4_eq (s : State) (k : StackRule) :
    (((s.popped k).popped k).popped k).popped k = { s with sp := s.stackSlot k 4 } :=
  congrArg (fun v => { s with sp := v }) (State.popped4_sp s k)

theorem State.popped_pull8 (s : State) (k : StackRule) : (s.popped k).pull8 k = s.stackByte k 2 := by
  simp only [State.pull8, State.stackTop, State.popped2_sp, State.stackByte]; rfl

theorem State.popped2_pull8 (s : State) (k : StackRule) : ((s.popped k).popped k).pull8 k = s.stackByte k 3 := by
  simp only [State.pull8, State.stackTop, State.popped3_sp, State.stackByte]; rfl

theorem State.popped3_pull8 (s : State) (k : StackRule) :
    (((s.popped k).popped k).popped k).pull8 k = s.stackByte k 4 := by
  simp only [State.pull8, State.stackTop, State.popped4_sp, State.stackByte]; rfl

theorem State.pull16_eq (s : State) (k : StackRule) :
    s.pull16 k = joinBytes (s.stackByte k 2) (s.stackByte k 1) := by
  rw [State.pull16, State.popped_pull8, State.pull8_eq]

theorem State.popped_pull16 (s : State) (k : StackRule) :
    (s.popped k).pull16 k = joinBytes (s.stackByte k 3) (s.stackByte k 2) := by
  rw [State.pull16, State.popped2_pull8, State.popped_pull8]

theorem State.pullW_eq (s : State) (k : StackRule) (w : Width) : s.pullW k w = s.pulled k w := by
  cases w with
  | byte => simp only [State.pullW, State.pulled, State.pull8_eq]
  | word => simp only [State.pullW, State.pulled, State.pull16_eq]

theorem State.poppedW_eq (s : State) (k : StackRule) (w : Width) :
    s.poppedW k w = { s with sp := s.stackSlot k (BitVec.ofNat 16 (byteCount w)) } := by
  cases w with
  | byte => exact congrArg (fun v => { s with sp := v }) (State.popped_sp s k)
  | word => exact congrArg (fun v => { s with sp := v }) (State.popped2_sp s k)

/-! ## Flags -/

/-- Updates of P alone set the listed flags. -/
theorem Sets.of_flags {s t : State} {fs : List (Flag × Bool)}
    (h : ∀ f, t.flag f = ((fs.lookup f).getD (s.flag f))) (hd : (fs.map Prod.fst).Nodup) : Sets s t fs := by
  refine ⟨fun fb hfb => ?_, fun f hf => ?_⟩
  · rw [h]
    obtain ⟨f, b⟩ := fb
    clear h
    induction fs with
    | nil => cases hfb
    | cons c fs ih =>
      obtain ⟨g, b'⟩ := c
      simp only [List.map_cons, List.nodup_cons] at hd
      rw [List.lookup_cons]
      by_cases hfg : f = g
      · subst hfg
        rcases List.mem_cons.mp hfb with h1 | h1
        · cases h1; simp
        · exact absurd (List.mem_map_of_mem (f := Prod.fst) h1) hd.1
      · have : (f == g) = false := by simpa using hfg
        rw [this]
        rcases List.mem_cons.mp hfb with h1 | h1
        · cases h1; exact absurd rfl hfg
        · exact ih hd.2 h1
  · rw [h]
    clear h hd
    induction fs with
    | nil => rfl
    | cons c fs ih =>
      obtain ⟨g, b'⟩ := c
      simp only [List.map_cons, List.mem_cons, not_or] at hf
      rw [List.lookup_cons]
      have : (f == g) = false := by simpa using hf.1
      rw [this]
      exact ih hf.2

/-- The order of the updates does not matter to what they set. -/
theorem msb_eq (w : Width) (r : Word) (h : w.trunc r = r) : w.msb r = decide (2 ^ (w.bits - 1) ≤ r.toNat) := by
  have hr := r.isLt
  cases w with
  | byte =>
    have hlt : r.toNat < 256 := by
      rw [← h]; simp [Width.trunc, zeroExtend8, lowByte]; omega
    simp only [Width.msb, Width.bits, BitVec.getLsbD, Nat.testBit_eq_decide_div_mod_eq]
    congr 1; simp; omega
  | word =>
    simp only [Width.msb, Width.bits, BitVec.getLsbD, Nat.testBit_eq_decide_div_mod_eq]
    congr 1; simp; omega

@[simp] theorem trunc_trunc (w : Width) (v : Word) : w.trunc (w.trunc v) = w.trunc v := by
  cases w <;> simp [Width.trunc]

theorem toNat_trunc (w : Width) (v : Word) : (w.trunc v).toNat = v.toNat % 2 ^ w.bits := by
  cases w with
  | byte => simp [Width.trunc, zeroExtend8, lowByte, Width.bits]; omega
  | word => simp [Width.trunc, Width.bits]; omega

theorem trunc_eq_self (w : Width) (v : Word) (h : v.toNat < 2 ^ w.bits) : w.trunc v = v := by
  apply BitVec.eq_of_toNat_eq; rw [toNat_trunc, Nat.mod_eq_of_lt h]

@[simp] theorem trunc_load (s : State) (ea : Ea) (w : Width) : w.trunc (s.load ea w) = s.load ea w := by
  cases w <;> simp [State.load, Width.trunc]

/-- `SetNZ` on a value that fits its width sets N and Z as R32 and R38 say. -/
theorem Sets.setNZ (s : State) (w : Width) (r : Word) (h : w.trunc r = r) : Sets s (s.setNZ w r) (nz w r) := by
  refine Sets.of_flags (fun f => ?_) (by simp [nz])
  rw [State.flag_setNZ, msb_eq w r h, isZero, h]
  cases f <;> simp [nz, List.lookup_cons] <;> rfl

/-! ## Interrupt entry and return -/

theorem State.pushedP_eq (s : State) (k : IntKind) : s.pushedP k = statusPushed k s := by
  unfold State.pushedP statusPushed
  cases s.e <;> cases k <;> rfl

/-- The frame of an entry (R410). -/
theorem State.pushFrame_pushed (s : State) (k : IntKind) :
    Pushed s (s.pushFrame k) .page
      ((if s.e then [] else [s.pbr]) ++ [highByte s.pc, lowByte s.pc, statusPushed k s]) := by
  rw [← State.pushedP_eq]
  unfold State.pushFrame
  cases he : s.e with
  | true =>
    exact ((Pushed.refl s .page).push16 (by simp) rfl rfl s.pc).push8 (by simp) rfl rfl _
  | false =>
    exact (((Pushed.refl s .page).push8 (by simp) rfl rfl s.pbr).push16 (by simp) rfl rfl s.pc).push8
      (by simp) rfl rfl _

/-- Interrupt entry does what R410 says, all of it. -/
theorem State.enter_entered (s : State) (k : IntKind) : Entered k (vector k s.e) s (s.enter k) := by
  refine ⟨?_, (State.pushFrame_pushed s k).congr rfl rfl rfl rfl, ?_, ?_⟩
  · unfold State.enter State.pushFrame
    by_cases he : s.e = true <;> simp [he]
  · refine Sets.of_flags (fun f => ?_) (by decide)
    simp only [State.flag, State.enter, getLsbD_setBit _ _ _ _ (show 2 < 8 by decide),
      getLsbD_setBit _ _ _ _ (show 3 < 8 by decide)]
    cases f <;> rfl
  · rfl

/-- RTI does what R292 says, all of it. -/
theorem State.returnFromInterrupt_eq (s : State) :
    s.returnFromInterrupt =
      { s.pulledP (s.stackByte .page 1) with
        pc := joinBytes (s.stackByte .page 3) (s.stackByte .page 2)
        pbr := if s.e then s.pbr else s.stackByte .page 4
        sp := s.stackSlot .page (if s.e then 3 else 4) } := by
  unfold State.returnFromInterrupt
  by_cases he : s.e = true
  · simp only [if_pos he, State.poppedW, State.popped3_eq, State.popped_pull16, State.pull8_eq, State.pulledP]
  · simp only [if_neg he, State.poppedW, State.popped3_pull8, State.popped4_eq, State.popped_pull16]
    simp only [State.pull8_eq, State.pulledP, if_neg he, State.writeP]

end Sys2Proof.Machine
end

