-- ==== Sys2Proof/Laws/Meanings.lean ====
section
/-! SUPPORT. One lemma per mnemonic with several forms: what exec answers for any of its forms, in terms of the operand
value or the memory mode. -/

namespace Sys2Proof.Machine

set_option linter.unnecessarySeqFocus false

variable (i : Instr) (s : State)

/-- LDA with a memory operand. -/
theorem exec_lda_data (md : MemMode) (hm : i.mnemonic = .lda) (ho : i.operand = .data md) :
    exec i s = .next (s.loadAcc (s.operand s.wM md)) := by
  cases i <;> cases hm <;> cases ho <;> rfl

/-- LDA with an immediate. -/
theorem exec_lda_imm (v : Word) (hm : i.mnemonic = .lda) (ho : i.operand = .immM v ∨ i.operand = .immX v) :
    exec i s = .next (s.loadAcc (s.wM.trunc v)) := by
  cases i <;> cases hm <;> rcases ho with ho | ho <;> cases ho <;> rfl

/-- ADC with a memory operand. -/
theorem exec_adc_data (md : MemMode) (hm : i.mnemonic = .adc) (ho : i.operand = .data md) :
    exec i s = .next (s.putArith (s.addResult (s.operand s.wM md))) := by
  cases i <;> cases hm <;> cases ho <;> rfl

/-- ADC with an immediate. -/
theorem exec_adc_imm (v : Word) (hm : i.mnemonic = .adc) (ho : i.operand = .immM v ∨ i.operand = .immX v) :
    exec i s = .next (s.putArith (s.addResult (s.wM.trunc v))) := by
  cases i <;> cases hm <;> rcases ho with ho | ho <;> cases ho <;> rfl

/-- SBC with a memory operand. -/
theorem exec_sbc_data (md : MemMode) (hm : i.mnemonic = .sbc) (ho : i.operand = .data md) :
    exec i s = .next (s.putArith (s.subResult (s.operand s.wM md))) := by
  cases i <;> cases hm <;> cases ho <;> rfl

/-- SBC with an immediate. -/
theorem exec_sbc_imm (v : Word) (hm : i.mnemonic = .sbc) (ho : i.operand = .immM v ∨ i.operand = .immX v) :
    exec i s = .next (s.putArith (s.subResult (s.wM.trunc v))) := by
  cases i <;> cases hm <;> rcases ho with ho | ho <;> cases ho <;> rfl

/-- CMP with a memory operand. -/
theorem exec_cmp_data (md : MemMode) (hm : i.mnemonic = .cmp) (ho : i.operand = .data md) :
    exec i s = .next (s.compare s.wM s.acc (s.operand s.wM md)) := by
  cases i <;> cases hm <;> cases ho <;> rfl

/-- CMP with an immediate. -/
theorem exec_cmp_imm (v : Word) (hm : i.mnemonic = .cmp) (ho : i.operand = .immM v ∨ i.operand = .immX v) :
    exec i s = .next (s.compare s.wM s.acc (s.wM.trunc v)) := by
  cases i <;> cases hm <;> rcases ho with ho | ho <;> cases ho <;> rfl

/-- AND with a memory operand. -/
theorem exec_and_data (md : MemMode) (hm : i.mnemonic = .and) (ho : i.operand = .data md) :
    exec i s = .next (s.loadAcc (s.acc &&& s.operand s.wM md)) := by
  cases i <;> cases hm <;> cases ho <;> rfl

/-- AND with an immediate. -/
theorem exec_and_imm (v : Word) (hm : i.mnemonic = .and) (ho : i.operand = .immM v ∨ i.operand = .immX v) :
    exec i s = .next (s.loadAcc (s.acc &&& s.wM.trunc v)) := by
  cases i <;> cases hm <;> rcases ho with ho | ho <;> cases ho <;> rfl

/-- ORA with a memory operand. -/
theorem exec_ora_data (md : MemMode) (hm : i.mnemonic = .ora) (ho : i.operand = .data md) :
    exec i s = .next (s.loadAcc (s.acc ||| s.operand s.wM md)) := by
  cases i <;> cases hm <;> cases ho <;> rfl

/-- ORA with an immediate. -/
theorem exec_ora_imm (v : Word) (hm : i.mnemonic = .ora) (ho : i.operand = .immM v ∨ i.operand = .immX v) :
    exec i s = .next (s.loadAcc (s.acc ||| s.wM.trunc v)) := by
  cases i <;> cases hm <;> rcases ho with ho | ho <;> cases ho <;> rfl

/-- EOR with a memory operand. -/
theorem exec_eor_data (md : MemMode) (hm : i.mnemonic = .eor) (ho : i.operand = .data md) :
    exec i s = .next (s.loadAcc (s.acc ^^^ s.operand s.wM md)) := by
  cases i <;> cases hm <;> cases ho <;> rfl

/-- EOR with an immediate. -/
theorem exec_eor_imm (v : Word) (hm : i.mnemonic = .eor) (ho : i.operand = .immM v ∨ i.operand = .immX v) :
    exec i s = .next (s.loadAcc (s.acc ^^^ s.wM.trunc v)) := by
  cases i <;> cases hm <;> rcases ho with ho | ho <;> cases ho <;> rfl

/-- LDX with a memory operand. -/
theorem exec_ldx_data (md : MemMode) (hm : i.mnemonic = .ldx) (ho : i.operand = .data md) :
    exec i s = .next (s.loadX (s.operand s.wX md)) := by
  cases i <;> cases hm <;> cases ho <;> rfl

/-- LDX with an immediate. -/
theorem exec_ldx_imm (v : Word) (hm : i.mnemonic = .ldx) (ho : i.operand = .immM v ∨ i.operand = .immX v) :
    exec i s = .next (s.loadX (s.wX.trunc v)) := by
  cases i <;> cases hm <;> rcases ho with ho | ho <;> cases ho <;> rfl

/-- LDY with a memory operand. -/
theorem exec_ldy_data (md : MemMode) (hm : i.mnemonic = .ldy) (ho : i.operand = .data md) :
    exec i s = .next (s.loadY (s.operand s.wX md)) := by
  cases i <;> cases hm <;> cases ho <;> rfl

/-- LDY with an immediate. -/
theorem exec_ldy_imm (v : Word) (hm : i.mnemonic = .ldy) (ho : i.operand = .immM v ∨ i.operand = .immX v) :
    exec i s = .next (s.loadY (s.wX.trunc v)) := by
  cases i <;> cases hm <;> rcases ho with ho | ho <;> cases ho <;> rfl

/-- CPX with a memory operand. -/
theorem exec_cpx_data (md : MemMode) (hm : i.mnemonic = .cpx) (ho : i.operand = .data md) :
    exec i s = .next (s.compare s.wX s.idxX (s.operand s.wX md)) := by
  cases i <;> cases hm <;> cases ho <;> rfl

/-- CPX with an immediate. -/
theorem exec_cpx_imm (v : Word) (hm : i.mnemonic = .cpx) (ho : i.operand = .immM v ∨ i.operand = .immX v) :
    exec i s = .next (s.compare s.wX s.idxX (s.wX.trunc v)) := by
  cases i <;> cases hm <;> rcases ho with ho | ho <;> cases ho <;> rfl

/-- CPY with a memory operand. -/
theorem exec_cpy_data (md : MemMode) (hm : i.mnemonic = .cpy) (ho : i.operand = .data md) :
    exec i s = .next (s.compare s.wX s.idxY (s.operand s.wX md)) := by
  cases i <;> cases hm <;> cases ho <;> rfl

/-- CPY with an immediate. -/
theorem exec_cpy_imm (v : Word) (hm : i.mnemonic = .cpy) (ho : i.operand = .immM v ∨ i.operand = .immX v) :
    exec i s = .next (s.compare s.wX s.idxY (s.wX.trunc v)) := by
  cases i <;> cases hm <;> rcases ho with ho | ho <;> cases ho <;> rfl

/-- BIT with a memory operand. -/
theorem exec_bit_data (md : MemMode) (hm : i.mnemonic = .bit) (ho : i.operand = .data md) :
    exec i s = .next (s.testBits (s.operand s.wM md)) := by
  cases i <;> cases hm <;> cases ho <;> rfl

/-- STA. -/
theorem exec_sta_data (md : MemMode) (hm : i.mnemonic = .sta) (ho : i.operand = .data md) :
    exec i s = .next (s.store (s.ea md) s.wM s.acc) := by
  cases i <;> cases hm <;> cases ho <;> rfl

/-- STX. -/
theorem exec_stx_data (md : MemMode) (hm : i.mnemonic = .stx) (ho : i.operand = .data md) :
    exec i s = .next (s.store (s.ea md) s.wX s.idxX) := by
  cases i <;> cases hm <;> cases ho <;> rfl

/-- STY. -/
theorem exec_sty_data (md : MemMode) (hm : i.mnemonic = .sty) (ho : i.operand = .data md) :
    exec i s = .next (s.store (s.ea md) s.wX s.idxY) := by
  cases i <;> cases hm <;> cases ho <;> rfl

/-- STZ. -/
theorem exec_stz_data (md : MemMode) (hm : i.mnemonic = .stz) (ho : i.operand = .data md) :
    exec i s = .next (s.store (s.ea md) s.wM 0) := by
  cases i <;> cases hm <;> cases ho <;> rfl

/-- INC with a memory operand. -/
theorem exec_inc_data (md : MemMode) (hm : i.mnemonic = .inc) (ho : i.operand = .data md) :
    exec i s = .next (s.modifyMem md (s.wM.trunc (s.operand s.wM md + 1))) := by
  cases i <;> cases hm <;> cases ho <;> rfl

/-- DEC with a memory operand. -/
theorem exec_dec_data (md : MemMode) (hm : i.mnemonic = .dec) (ho : i.operand = .data md) :
    exec i s = .next (s.modifyMem md (s.wM.trunc (s.operand s.wM md - 1))) := by
  cases i <;> cases hm <;> cases ho <;> rfl

/-- TSB with a memory operand. -/
theorem exec_tsb_data (md : MemMode) (hm : i.mnemonic = .tsb) (ho : i.operand = .data md) :
    exec i s = .next (s.testAndWrite md (s.operand s.wM md ||| s.acc)) := by
  cases i <;> cases hm <;> cases ho <;> rfl

/-- TRB with a memory operand. -/
theorem exec_trb_data (md : MemMode) (hm : i.mnemonic = .trb) (ho : i.operand = .data md) :
    exec i s = .next (s.testAndWrite md (s.operand s.wM md &&& ~~~s.acc)) := by
  cases i <;> cases hm <;> cases ho <;> rfl

/-- ASL with a memory operand. -/
theorem exec_asl_data (md : MemMode) (hm : i.mnemonic = .asl) (ho : i.operand = .data md) :
    exec i s = .next (s.shiftMem .asl md) := by
  cases i <;> cases hm <;> cases ho <;> rfl

/-- LSR with a memory operand. -/
theorem exec_lsr_data (md : MemMode) (hm : i.mnemonic = .lsr) (ho : i.operand = .data md) :
    exec i s = .next (s.shiftMem .lsr md) := by
  cases i <;> cases hm <;> cases ho <;> rfl

/-- ROL with a memory operand. -/
theorem exec_rol_data (md : MemMode) (hm : i.mnemonic = .rol) (ho : i.operand = .data md) :
    exec i s = .next (s.shiftMem .rol md) := by
  cases i <;> cases hm <;> cases ho <;> rfl

/-- ROR with a memory operand. -/
theorem exec_ror_data (md : MemMode) (hm : i.mnemonic = .ror) (ho : i.operand = .data md) :
    exec i s = .next (s.shiftMem .ror md) := by
  cases i <;> cases hm <;> cases ho <;> rfl

end Sys2Proof.Machine
end

