-- ==== Sys2Proof/Laws/PerInstr.lean ====
section
/-! SUPPORT. Facts about every instruction as syntax: the size of its encoding, constructor by constructor, and the
table of mnemonics, opcodes and modes. -/

namespace Sys2Proof.Laws

/-- The encoding has as many bytes as `Instr.length` says, one to four (R100, R102). -/
def EncodedSize.Statement (i : Instr) : Prop :=
  ∀ m x : Bool, (encode m x i).length = i.length m x ∧ 1 ≤ i.length m x ∧ i.length m x ≤ 4

theorem EncodedSize.brk (b : Byte) : EncodedSize.Statement (.brk b) := fun _ _ =>
  ⟨rfl, Nat.le_of_ble_eq_true rfl, Nat.le_of_ble_eq_true rfl⟩

theorem EncodedSize.oraIdpx (d : Byte) : EncodedSize.Statement (.oraIdpx d) := fun _ _ =>
  ⟨rfl, Nat.le_of_ble_eq_true rfl, Nat.le_of_ble_eq_true rfl⟩

theorem EncodedSize.cop (b : Byte) : EncodedSize.Statement (.cop b) := fun _ _ =>
  ⟨rfl, Nat.le_of_ble_eq_true rfl, Nat.le_of_ble_eq_true rfl⟩

theorem EncodedSize.oraSr (d : Byte) : EncodedSize.Statement (.oraSr d) := fun _ _ =>
  ⟨rfl, Nat.le_of_ble_eq_true rfl, Nat.le_of_ble_eq_true rfl⟩

theorem EncodedSize.tsbDp (d : Byte) : EncodedSize.Statement (.tsbDp d) := fun _ _ =>
  ⟨rfl, Nat.le_of_ble_eq_true rfl, Nat.le_of_ble_eq_true rfl⟩

theorem EncodedSize.oraDp (d : Byte) : EncodedSize.Statement (.oraDp d) := fun _ _ =>
  ⟨rfl, Nat.le_of_ble_eq_true rfl, Nat.le_of_ble_eq_true rfl⟩

theorem EncodedSize.aslDp (d : Byte) : EncodedSize.Statement (.aslDp d) := fun _ _ =>
  ⟨rfl, Nat.le_of_ble_eq_true rfl, Nat.le_of_ble_eq_true rfl⟩

theorem EncodedSize.oraIldp (d : Byte) : EncodedSize.Statement (.oraIldp d) := fun _ _ =>
  ⟨rfl, Nat.le_of_ble_eq_true rfl, Nat.le_of_ble_eq_true rfl⟩

theorem EncodedSize.php : EncodedSize.Statement .php := fun _ _ =>
  ⟨rfl, Nat.le_of_ble_eq_true rfl, Nat.le_of_ble_eq_true rfl⟩

theorem EncodedSize.oraImm (v : Word) : EncodedSize.Statement (.oraImm v) := fun m x => by
  cases m <;> cases x <;> exact ⟨rfl, Nat.le_of_ble_eq_true rfl, Nat.le_of_ble_eq_true rfl⟩

theorem EncodedSize.aslAcc : EncodedSize.Statement .aslAcc := fun _ _ =>
  ⟨rfl, Nat.le_of_ble_eq_true rfl, Nat.le_of_ble_eq_true rfl⟩

theorem EncodedSize.phd : EncodedSize.Statement .phd := fun _ _ =>
  ⟨rfl, Nat.le_of_ble_eq_true rfl, Nat.le_of_ble_eq_true rfl⟩

theorem EncodedSize.tsbAbs (a : Word) : EncodedSize.Statement (.tsbAbs a) := fun _ _ =>
  ⟨rfl, Nat.le_of_ble_eq_true rfl, Nat.le_of_ble_eq_true rfl⟩

theorem EncodedSize.oraAbs (a : Word) : EncodedSize.Statement (.oraAbs a) := fun _ _ =>
  ⟨rfl, Nat.le_of_ble_eq_true rfl, Nat.le_of_ble_eq_true rfl⟩

theorem EncodedSize.aslAbs (a : Word) : EncodedSize.Statement (.aslAbs a) := fun _ _ =>
  ⟨rfl, Nat.le_of_ble_eq_true rfl, Nat.le_of_ble_eq_true rfl⟩

theorem EncodedSize.oraLong (al : Addr) : EncodedSize.Statement (.oraLong al) := fun _ _ =>
  ⟨rfl, Nat.le_of_ble_eq_true rfl, Nat.le_of_ble_eq_true rfl⟩

theorem EncodedSize.bpl (o : Byte) : EncodedSize.Statement (.bpl o) := fun _ _ =>
  ⟨rfl, Nat.le_of_ble_eq_true rfl, Nat.le_of_ble_eq_true rfl⟩

theorem EncodedSize.oraIdpy (d : Byte) : EncodedSize.Statement (.oraIdpy d) := fun _ _ =>
  ⟨rfl, Nat.le_of_ble_eq_true rfl, Nat.le_of_ble_eq_true rfl⟩

theorem EncodedSize.oraIdp (d : Byte) : EncodedSize.Statement (.oraIdp d) := fun _ _ =>
  ⟨rfl, Nat.le_of_ble_eq_true rfl, Nat.le_of_ble_eq_true rfl⟩

theorem EncodedSize.oraIsry (d : Byte) : EncodedSize.Statement (.oraIsry d) := fun _ _ =>
  ⟨rfl, Nat.le_of_ble_eq_true rfl, Nat.le_of_ble_eq_true rfl⟩

theorem EncodedSize.trbDp (d : Byte) : EncodedSize.Statement (.trbDp d) := fun _ _ =>
  ⟨rfl, Nat.le_of_ble_eq_true rfl, Nat.le_of_ble_eq_true rfl⟩

theorem EncodedSize.oraDpx (d : Byte) : EncodedSize.Statement (.oraDpx d) := fun _ _ =>
  ⟨rfl, Nat.le_of_ble_eq_true rfl, Nat.le_of_ble_eq_true rfl⟩

theorem EncodedSize.aslDpx (d : Byte) : EncodedSize.Statement (.aslDpx d) := fun _ _ =>
  ⟨rfl, Nat.le_of_ble_eq_true rfl, Nat.le_of_ble_eq_true rfl⟩

theorem EncodedSize.oraIldpy (d : Byte) : EncodedSize.Statement (.oraIldpy d) := fun _ _ =>
  ⟨rfl, Nat.le_of_ble_eq_true rfl, Nat.le_of_ble_eq_true rfl⟩

theorem EncodedSize.clc : EncodedSize.Statement .clc := fun _ _ =>
  ⟨rfl, Nat.le_of_ble_eq_true rfl, Nat.le_of_ble_eq_true rfl⟩

theorem EncodedSize.oraAbsy (a : Word) : EncodedSize.Statement (.oraAbsy a) := fun _ _ =>
  ⟨rfl, Nat.le_of_ble_eq_true rfl, Nat.le_of_ble_eq_true rfl⟩

theorem EncodedSize.incAcc : EncodedSize.Statement .incAcc := fun _ _ =>
  ⟨rfl, Nat.le_of_ble_eq_true rfl, Nat.le_of_ble_eq_true rfl⟩

theorem EncodedSize.tcs : EncodedSize.Statement .tcs := fun _ _ =>
  ⟨rfl, Nat.le_of_ble_eq_true rfl, Nat.le_of_ble_eq_true rfl⟩

theorem EncodedSize.trbAbs (a : Word) : EncodedSize.Statement (.trbAbs a) := fun _ _ =>
  ⟨rfl, Nat.le_of_ble_eq_true rfl, Nat.le_of_ble_eq_true rfl⟩

theorem EncodedSize.oraAbsx (a : Word) : EncodedSize.Statement (.oraAbsx a) := fun _ _ =>
  ⟨rfl, Nat.le_of_ble_eq_true rfl, Nat.le_of_ble_eq_true rfl⟩

theorem EncodedSize.aslAbsx (a : Word) : EncodedSize.Statement (.aslAbsx a) := fun _ _ =>
  ⟨rfl, Nat.le_of_ble_eq_true rfl, Nat.le_of_ble_eq_true rfl⟩

theorem EncodedSize.oraLongx (al : Addr) : EncodedSize.Statement (.oraLongx al) := fun _ _ =>
  ⟨rfl, Nat.le_of_ble_eq_true rfl, Nat.le_of_ble_eq_true rfl⟩

theorem EncodedSize.jsrAbs (a : Word) : EncodedSize.Statement (.jsrAbs a) := fun _ _ =>
  ⟨rfl, Nat.le_of_ble_eq_true rfl, Nat.le_of_ble_eq_true rfl⟩

theorem EncodedSize.andIdpx (d : Byte) : EncodedSize.Statement (.andIdpx d) := fun _ _ =>
  ⟨rfl, Nat.le_of_ble_eq_true rfl, Nat.le_of_ble_eq_true rfl⟩

theorem EncodedSize.jsl (al : Addr) : EncodedSize.Statement (.jsl al) := fun _ _ =>
  ⟨rfl, Nat.le_of_ble_eq_true rfl, Nat.le_of_ble_eq_true rfl⟩

theorem EncodedSize.andSr (d : Byte) : EncodedSize.Statement (.andSr d) := fun _ _ =>
  ⟨rfl, Nat.le_of_ble_eq_true rfl, Nat.le_of_ble_eq_true rfl⟩

theorem EncodedSize.bitDp (d : Byte) : EncodedSize.Statement (.bitDp d) := fun _ _ =>
  ⟨rfl, Nat.le_of_ble_eq_true rfl, Nat.le_of_ble_eq_true rfl⟩

theorem EncodedSize.andDp (d : Byte) : EncodedSize.Statement (.andDp d) := fun _ _ =>
  ⟨rfl, Nat.le_of_ble_eq_true rfl, Nat.le_of_ble_eq_true rfl⟩

theorem EncodedSize.rolDp (d : Byte) : EncodedSize.Statement (.rolDp d) := fun _ _ =>
  ⟨rfl, Nat.le_of_ble_eq_true rfl, Nat.le_of_ble_eq_true rfl⟩

theorem EncodedSize.andIldp (d : Byte) : EncodedSize.Statement (.andIldp d) := fun _ _ =>
  ⟨rfl, Nat.le_of_ble_eq_true rfl, Nat.le_of_ble_eq_true rfl⟩

theorem EncodedSize.plp : EncodedSize.Statement .plp := fun _ _ =>
  ⟨rfl, Nat.le_of_ble_eq_true rfl, Nat.le_of_ble_eq_true rfl⟩

theorem EncodedSize.andImm (v : Word) : EncodedSize.Statement (.andImm v) := fun m x => by
  cases m <;> cases x <;> exact ⟨rfl, Nat.le_of_ble_eq_true rfl, Nat.le_of_ble_eq_true rfl⟩

theorem EncodedSize.rolAcc : EncodedSize.Statement .rolAcc := fun _ _ =>
  ⟨rfl, Nat.le_of_ble_eq_true rfl, Nat.le_of_ble_eq_true rfl⟩

theorem EncodedSize.pld : EncodedSize.Statement .pld := fun _ _ =>
  ⟨rfl, Nat.le_of_ble_eq_true rfl, Nat.le_of_ble_eq_true rfl⟩

theorem EncodedSize.bitAbs (a : Word) : EncodedSize.Statement (.bitAbs a) := fun _ _ =>
  ⟨rfl, Nat.le_of_ble_eq_true rfl, Nat.le_of_ble_eq_true rfl⟩

theorem EncodedSize.andAbs (a : Word) : EncodedSize.Statement (.andAbs a) := fun _ _ =>
  ⟨rfl, Nat.le_of_ble_eq_true rfl, Nat.le_of_ble_eq_true rfl⟩

theorem EncodedSize.rolAbs (a : Word) : EncodedSize.Statement (.rolAbs a) := fun _ _ =>
  ⟨rfl, Nat.le_of_ble_eq_true rfl, Nat.le_of_ble_eq_true rfl⟩

theorem EncodedSize.andLong (al : Addr) : EncodedSize.Statement (.andLong al) := fun _ _ =>
  ⟨rfl, Nat.le_of_ble_eq_true rfl, Nat.le_of_ble_eq_true rfl⟩

theorem EncodedSize.bmi (o : Byte) : EncodedSize.Statement (.bmi o) := fun _ _ =>
  ⟨rfl, Nat.le_of_ble_eq_true rfl, Nat.le_of_ble_eq_true rfl⟩

theorem EncodedSize.andIdpy (d : Byte) : EncodedSize.Statement (.andIdpy d) := fun _ _ =>
  ⟨rfl, Nat.le_of_ble_eq_true rfl, Nat.le_of_ble_eq_true rfl⟩

theorem EncodedSize.andIdp (d : Byte) : EncodedSize.Statement (.andIdp d) := fun _ _ =>
  ⟨rfl, Nat.le_of_ble_eq_true rfl, Nat.le_of_ble_eq_true rfl⟩

theorem EncodedSize.andIsry (d : Byte) : EncodedSize.Statement (.andIsry d) := fun _ _ =>
  ⟨rfl, Nat.le_of_ble_eq_true rfl, Nat.le_of_ble_eq_true rfl⟩

theorem EncodedSize.bitDpx (d : Byte) : EncodedSize.Statement (.bitDpx d) := fun _ _ =>
  ⟨rfl, Nat.le_of_ble_eq_true rfl, Nat.le_of_ble_eq_true rfl⟩

theorem EncodedSize.andDpx (d : Byte) : EncodedSize.Statement (.andDpx d) := fun _ _ =>
  ⟨rfl, Nat.le_of_ble_eq_true rfl, Nat.le_of_ble_eq_true rfl⟩

theorem EncodedSize.rolDpx (d : Byte) : EncodedSize.Statement (.rolDpx d) := fun _ _ =>
  ⟨rfl, Nat.le_of_ble_eq_true rfl, Nat.le_of_ble_eq_true rfl⟩

theorem EncodedSize.andIldpy (d : Byte) : EncodedSize.Statement (.andIldpy d) := fun _ _ =>
  ⟨rfl, Nat.le_of_ble_eq_true rfl, Nat.le_of_ble_eq_true rfl⟩

theorem EncodedSize.sec : EncodedSize.Statement .sec := fun _ _ =>
  ⟨rfl, Nat.le_of_ble_eq_true rfl, Nat.le_of_ble_eq_true rfl⟩

theorem EncodedSize.andAbsy (a : Word) : EncodedSize.Statement (.andAbsy a) := fun _ _ =>
  ⟨rfl, Nat.le_of_ble_eq_true rfl, Nat.le_of_ble_eq_true rfl⟩

theorem EncodedSize.decAcc : EncodedSize.Statement .decAcc := fun _ _ =>
  ⟨rfl, Nat.le_of_ble_eq_true rfl, Nat.le_of_ble_eq_true rfl⟩

theorem EncodedSize.tsc : EncodedSize.Statement .tsc := fun _ _ =>
  ⟨rfl, Nat.le_of_ble_eq_true rfl, Nat.le_of_ble_eq_true rfl⟩

theorem EncodedSize.bitAbsx (a : Word) : EncodedSize.Statement (.bitAbsx a) := fun _ _ =>
  ⟨rfl, Nat.le_of_ble_eq_true rfl, Nat.le_of_ble_eq_true rfl⟩

theorem EncodedSize.andAbsx (a : Word) : EncodedSize.Statement (.andAbsx a) := fun _ _ =>
  ⟨rfl, Nat.le_of_ble_eq_true rfl, Nat.le_of_ble_eq_true rfl⟩

theorem EncodedSize.rolAbsx (a : Word) : EncodedSize.Statement (.rolAbsx a) := fun _ _ =>
  ⟨rfl, Nat.le_of_ble_eq_true rfl, Nat.le_of_ble_eq_true rfl⟩

theorem EncodedSize.andLongx (al : Addr) : EncodedSize.Statement (.andLongx al) := fun _ _ =>
  ⟨rfl, Nat.le_of_ble_eq_true rfl, Nat.le_of_ble_eq_true rfl⟩

theorem EncodedSize.rti : EncodedSize.Statement .rti := fun _ _ =>
  ⟨rfl, Nat.le_of_ble_eq_true rfl, Nat.le_of_ble_eq_true rfl⟩

theorem EncodedSize.eorIdpx (d : Byte) : EncodedSize.Statement (.eorIdpx d) := fun _ _ =>
  ⟨rfl, Nat.le_of_ble_eq_true rfl, Nat.le_of_ble_eq_true rfl⟩

theorem EncodedSize.wdm (b : Byte) : EncodedSize.Statement (.wdm b) := fun _ _ =>
  ⟨rfl, Nat.le_of_ble_eq_true rfl, Nat.le_of_ble_eq_true rfl⟩

theorem EncodedSize.eorSr (d : Byte) : EncodedSize.Statement (.eorSr d) := fun _ _ =>
  ⟨rfl, Nat.le_of_ble_eq_true rfl, Nat.le_of_ble_eq_true rfl⟩

theorem EncodedSize.mvp (dst : Byte) (src : Byte) : EncodedSize.Statement (.mvp dst src) := fun _ _ =>
  ⟨rfl, Nat.le_of_ble_eq_true rfl, Nat.le_of_ble_eq_true rfl⟩

theorem EncodedSize.eorDp (d : Byte) : EncodedSize.Statement (.eorDp d) := fun _ _ =>
  ⟨rfl, Nat.le_of_ble_eq_true rfl, Nat.le_of_ble_eq_true rfl⟩

theorem EncodedSize.lsrDp (d : Byte) : EncodedSize.Statement (.lsrDp d) := fun _ _ =>
  ⟨rfl, Nat.le_of_ble_eq_true rfl, Nat.le_of_ble_eq_true rfl⟩

theorem EncodedSize.eorIldp (d : Byte) : EncodedSize.Statement (.eorIldp d) := fun _ _ =>
  ⟨rfl, Nat.le_of_ble_eq_true rfl, Nat.le_of_ble_eq_true rfl⟩

theorem EncodedSize.pha : EncodedSize.Statement .pha := fun _ _ =>
  ⟨rfl, Nat.le_of_ble_eq_true rfl, Nat.le_of_ble_eq_true rfl⟩

theorem EncodedSize.eorImm (v : Word) : EncodedSize.Statement (.eorImm v) := fun m x => by
  cases m <;> cases x <;> exact ⟨rfl, Nat.le_of_ble_eq_true rfl, Nat.le_of_ble_eq_true rfl⟩

theorem EncodedSize.lsrAcc : EncodedSize.Statement .lsrAcc := fun _ _ =>
  ⟨rfl, Nat.le_of_ble_eq_true rfl, Nat.le_of_ble_eq_true rfl⟩

theorem EncodedSize.phk : EncodedSize.Statement .phk := fun _ _ =>
  ⟨rfl, Nat.le_of_ble_eq_true rfl, Nat.le_of_ble_eq_true rfl⟩

theorem EncodedSize.jmpAbs (a : Word) : EncodedSize.Statement (.jmpAbs a) := fun _ _ =>
  ⟨rfl, Nat.le_of_ble_eq_true rfl, Nat.le_of_ble_eq_true rfl⟩

theorem EncodedSize.eorAbs (a : Word) : EncodedSize.Statement (.eorAbs a) := fun _ _ =>
  ⟨rfl, Nat.le_of_ble_eq_true rfl, Nat.le_of_ble_eq_true rfl⟩

theorem EncodedSize.lsrAbs (a : Word) : EncodedSize.Statement (.lsrAbs a) := fun _ _ =>
  ⟨rfl, Nat.le_of_ble_eq_true rfl, Nat.le_of_ble_eq_true rfl⟩

theorem EncodedSize.eorLong (al : Addr) : EncodedSize.Statement (.eorLong al) := fun _ _ =>
  ⟨rfl, Nat.le_of_ble_eq_true rfl, Nat.le_of_ble_eq_true rfl⟩

theorem EncodedSize.bvc (o : Byte) : EncodedSize.Statement (.bvc o) := fun _ _ =>
  ⟨rfl, Nat.le_of_ble_eq_true rfl, Nat.le_of_ble_eq_true rfl⟩

theorem EncodedSize.eorIdpy (d : Byte) : EncodedSize.Statement (.eorIdpy d) := fun _ _ =>
  ⟨rfl, Nat.le_of_ble_eq_true rfl, Nat.le_of_ble_eq_true rfl⟩

theorem EncodedSize.eorIdp (d : Byte) : EncodedSize.Statement (.eorIdp d) := fun _ _ =>
  ⟨rfl, Nat.le_of_ble_eq_true rfl, Nat.le_of_ble_eq_true rfl⟩

theorem EncodedSize.eorIsry (d : Byte) : EncodedSize.Statement (.eorIsry d) := fun _ _ =>
  ⟨rfl, Nat.le_of_ble_eq_true rfl, Nat.le_of_ble_eq_true rfl⟩

theorem EncodedSize.mvn (dst : Byte) (src : Byte) : EncodedSize.Statement (.mvn dst src) := fun _ _ =>
  ⟨rfl, Nat.le_of_ble_eq_true rfl, Nat.le_of_ble_eq_true rfl⟩

theorem EncodedSize.eorDpx (d : Byte) : EncodedSize.Statement (.eorDpx d) := fun _ _ =>
  ⟨rfl, Nat.le_of_ble_eq_true rfl, Nat.le_of_ble_eq_true rfl⟩

theorem EncodedSize.lsrDpx (d : Byte) : EncodedSize.Statement (.lsrDpx d) := fun _ _ =>
  ⟨rfl, Nat.le_of_ble_eq_true rfl, Nat.le_of_ble_eq_true rfl⟩

theorem EncodedSize.eorIldpy (d : Byte) : EncodedSize.Statement (.eorIldpy d) := fun _ _ =>
  ⟨rfl, Nat.le_of_ble_eq_true rfl, Nat.le_of_ble_eq_true rfl⟩

theorem EncodedSize.cli : EncodedSize.Statement .cli := fun _ _ =>
  ⟨rfl, Nat.le_of_ble_eq_true rfl, Nat.le_of_ble_eq_true rfl⟩

theorem EncodedSize.eorAbsy (a : Word) : EncodedSize.Statement (.eorAbsy a) := fun _ _ =>
  ⟨rfl, Nat.le_of_ble_eq_true rfl, Nat.le_of_ble_eq_true rfl⟩

theorem EncodedSize.phy : EncodedSize.Statement .phy := fun _ _ =>
  ⟨rfl, Nat.le_of_ble_eq_true rfl, Nat.le_of_ble_eq_true rfl⟩

theorem EncodedSize.tcd : EncodedSize.Statement .tcd := fun _ _ =>
  ⟨rfl, Nat.le_of_ble_eq_true rfl, Nat.le_of_ble_eq_true rfl⟩

theorem EncodedSize.jmlLong (al : Addr) : EncodedSize.Statement (.jmlLong al) := fun _ _ =>
  ⟨rfl, Nat.le_of_ble_eq_true rfl, Nat.le_of_ble_eq_true rfl⟩

theorem EncodedSize.eorAbsx (a : Word) : EncodedSize.Statement (.eorAbsx a) := fun _ _ =>
  ⟨rfl, Nat.le_of_ble_eq_true rfl, Nat.le_of_ble_eq_true rfl⟩

theorem EncodedSize.lsrAbsx (a : Word) : EncodedSize.Statement (.lsrAbsx a) := fun _ _ =>
  ⟨rfl, Nat.le_of_ble_eq_true rfl, Nat.le_of_ble_eq_true rfl⟩

theorem EncodedSize.eorLongx (al : Addr) : EncodedSize.Statement (.eorLongx al) := fun _ _ =>
  ⟨rfl, Nat.le_of_ble_eq_true rfl, Nat.le_of_ble_eq_true rfl⟩

theorem EncodedSize.rts : EncodedSize.Statement .rts := fun _ _ =>
  ⟨rfl, Nat.le_of_ble_eq_true rfl, Nat.le_of_ble_eq_true rfl⟩

theorem EncodedSize.adcIdpx (d : Byte) : EncodedSize.Statement (.adcIdpx d) := fun _ _ =>
  ⟨rfl, Nat.le_of_ble_eq_true rfl, Nat.le_of_ble_eq_true rfl⟩

theorem EncodedSize.per (o : Word) : EncodedSize.Statement (.per o) := fun _ _ =>
  ⟨rfl, Nat.le_of_ble_eq_true rfl, Nat.le_of_ble_eq_true rfl⟩

theorem EncodedSize.adcSr (d : Byte) : EncodedSize.Statement (.adcSr d) := fun _ _ =>
  ⟨rfl, Nat.le_of_ble_eq_true rfl, Nat.le_of_ble_eq_true rfl⟩

theorem EncodedSize.stzDp (d : Byte) : EncodedSize.Statement (.stzDp d) := fun _ _ =>
  ⟨rfl, Nat.le_of_ble_eq_true rfl, Nat.le_of_ble_eq_true rfl⟩

theorem EncodedSize.adcDp (d : Byte) : EncodedSize.Statement (.adcDp d) := fun _ _ =>
  ⟨rfl, Nat.le_of_ble_eq_true rfl, Nat.le_of_ble_eq_true rfl⟩

theorem EncodedSize.rorDp (d : Byte) : EncodedSize.Statement (.rorDp d) := fun _ _ =>
  ⟨rfl, Nat.le_of_ble_eq_true rfl, Nat.le_of_ble_eq_true rfl⟩

theorem EncodedSize.adcIldp (d : Byte) : EncodedSize.Statement (.adcIldp d) := fun _ _ =>
  ⟨rfl, Nat.le_of_ble_eq_true rfl, Nat.le_of_ble_eq_true rfl⟩

theorem EncodedSize.pla : EncodedSize.Statement .pla := fun _ _ =>
  ⟨rfl, Nat.le_of_ble_eq_true rfl, Nat.le_of_ble_eq_true rfl⟩

theorem EncodedSize.adcImm (v : Word) : EncodedSize.Statement (.adcImm v) := fun m x => by
  cases m <;> cases x <;> exact ⟨rfl, Nat.le_of_ble_eq_true rfl, Nat.le_of_ble_eq_true rfl⟩

theorem EncodedSize.rorAcc : EncodedSize.Statement .rorAcc := fun _ _ =>
  ⟨rfl, Nat.le_of_ble_eq_true rfl, Nat.le_of_ble_eq_true rfl⟩

theorem EncodedSize.rtl : EncodedSize.Statement .rtl := fun _ _ =>
  ⟨rfl, Nat.le_of_ble_eq_true rfl, Nat.le_of_ble_eq_true rfl⟩

theorem EncodedSize.jmpInd (a : Word) : EncodedSize.Statement (.jmpInd a) := fun _ _ =>
  ⟨rfl, Nat.le_of_ble_eq_true rfl, Nat.le_of_ble_eq_true rfl⟩

theorem EncodedSize.adcAbs (a : Word) : EncodedSize.Statement (.adcAbs a) := fun _ _ =>
  ⟨rfl, Nat.le_of_ble_eq_true rfl, Nat.le_of_ble_eq_true rfl⟩

theorem EncodedSize.rorAbs (a : Word) : EncodedSize.Statement (.rorAbs a) := fun _ _ =>
  ⟨rfl, Nat.le_of_ble_eq_true rfl, Nat.le_of_ble_eq_true rfl⟩

theorem EncodedSize.adcLong (al : Addr) : EncodedSize.Statement (.adcLong al) := fun _ _ =>
  ⟨rfl, Nat.le_of_ble_eq_true rfl, Nat.le_of_ble_eq_true rfl⟩

theorem EncodedSize.bvs (o : Byte) : EncodedSize.Statement (.bvs o) := fun _ _ =>
  ⟨rfl, Nat.le_of_ble_eq_true rfl, Nat.le_of_ble_eq_true rfl⟩

theorem EncodedSize.adcIdpy (d : Byte) : EncodedSize.Statement (.adcIdpy d) := fun _ _ =>
  ⟨rfl, Nat.le_of_ble_eq_true rfl, Nat.le_of_ble_eq_true rfl⟩

theorem EncodedSize.adcIdp (d : Byte) : EncodedSize.Statement (.adcIdp d) := fun _ _ =>
  ⟨rfl, Nat.le_of_ble_eq_true rfl, Nat.le_of_ble_eq_true rfl⟩

theorem EncodedSize.adcIsry (d : Byte) : EncodedSize.Statement (.adcIsry d) := fun _ _ =>
  ⟨rfl, Nat.le_of_ble_eq_true rfl, Nat.le_of_ble_eq_true rfl⟩

theorem EncodedSize.stzDpx (d : Byte) : EncodedSize.Statement (.stzDpx d) := fun _ _ =>
  ⟨rfl, Nat.le_of_ble_eq_true rfl, Nat.le_of_ble_eq_true rfl⟩

theorem EncodedSize.adcDpx (d : Byte) : EncodedSize.Statement (.adcDpx d) := fun _ _ =>
  ⟨rfl, Nat.le_of_ble_eq_true rfl, Nat.le_of_ble_eq_true rfl⟩

theorem EncodedSize.rorDpx (d : Byte) : EncodedSize.Statement (.rorDpx d) := fun _ _ =>
  ⟨rfl, Nat.le_of_ble_eq_true rfl, Nat.le_of_ble_eq_true rfl⟩

theorem EncodedSize.adcIldpy (d : Byte) : EncodedSize.Statement (.adcIldpy d) := fun _ _ =>
  ⟨rfl, Nat.le_of_ble_eq_true rfl, Nat.le_of_ble_eq_true rfl⟩

theorem EncodedSize.sei : EncodedSize.Statement .sei := fun _ _ =>
  ⟨rfl, Nat.le_of_ble_eq_true rfl, Nat.le_of_ble_eq_true rfl⟩

theorem EncodedSize.adcAbsy (a : Word) : EncodedSize.Statement (.adcAbsy a) := fun _ _ =>
  ⟨rfl, Nat.le_of_ble_eq_true rfl, Nat.le_of_ble_eq_true rfl⟩

theorem EncodedSize.ply : EncodedSize.Statement .ply := fun _ _ =>
  ⟨rfl, Nat.le_of_ble_eq_true rfl, Nat.le_of_ble_eq_true rfl⟩

theorem EncodedSize.tdc : EncodedSize.Statement .tdc := fun _ _ =>
  ⟨rfl, Nat.le_of_ble_eq_true rfl, Nat.le_of_ble_eq_true rfl⟩

theorem EncodedSize.jmpIndx (a : Word) : EncodedSize.Statement (.jmpIndx a) := fun _ _ =>
  ⟨rfl, Nat.le_of_ble_eq_true rfl, Nat.le_of_ble_eq_true rfl⟩

theorem EncodedSize.adcAbsx (a : Word) : EncodedSize.Statement (.adcAbsx a) := fun _ _ =>
  ⟨rfl, Nat.le_of_ble_eq_true rfl, Nat.le_of_ble_eq_true rfl⟩

theorem EncodedSize.rorAbsx (a : Word) : EncodedSize.Statement (.rorAbsx a) := fun _ _ =>
  ⟨rfl, Nat.le_of_ble_eq_true rfl, Nat.le_of_ble_eq_true rfl⟩

theorem EncodedSize.adcLongx (al : Addr) : EncodedSize.Statement (.adcLongx al) := fun _ _ =>
  ⟨rfl, Nat.le_of_ble_eq_true rfl, Nat.le_of_ble_eq_true rfl⟩

theorem EncodedSize.bra (o : Byte) : EncodedSize.Statement (.bra o) := fun _ _ =>
  ⟨rfl, Nat.le_of_ble_eq_true rfl, Nat.le_of_ble_eq_true rfl⟩

theorem EncodedSize.staIdpx (d : Byte) : EncodedSize.Statement (.staIdpx d) := fun _ _ =>
  ⟨rfl, Nat.le_of_ble_eq_true rfl, Nat.le_of_ble_eq_true rfl⟩

theorem EncodedSize.brl (o : Word) : EncodedSize.Statement (.brl o) := fun _ _ =>
  ⟨rfl, Nat.le_of_ble_eq_true rfl, Nat.le_of_ble_eq_true rfl⟩

theorem EncodedSize.staSr (d : Byte) : EncodedSize.Statement (.staSr d) := fun _ _ =>
  ⟨rfl, Nat.le_of_ble_eq_true rfl, Nat.le_of_ble_eq_true rfl⟩

theorem EncodedSize.styDp (d : Byte) : EncodedSize.Statement (.styDp d) := fun _ _ =>
  ⟨rfl, Nat.le_of_ble_eq_true rfl, Nat.le_of_ble_eq_true rfl⟩

theorem EncodedSize.staDp (d : Byte) : EncodedSize.Statement (.staDp d) := fun _ _ =>
  ⟨rfl, Nat.le_of_ble_eq_true rfl, Nat.le_of_ble_eq_true rfl⟩

theorem EncodedSize.stxDp (d : Byte) : EncodedSize.Statement (.stxDp d) := fun _ _ =>
  ⟨rfl, Nat.le_of_ble_eq_true rfl, Nat.le_of_ble_eq_true rfl⟩

theorem EncodedSize.staIldp (d : Byte) : EncodedSize.Statement (.staIldp d) := fun _ _ =>
  ⟨rfl, Nat.le_of_ble_eq_true rfl, Nat.le_of_ble_eq_true rfl⟩

theorem EncodedSize.dey : EncodedSize.Statement .dey := fun _ _ =>
  ⟨rfl, Nat.le_of_ble_eq_true rfl, Nat.le_of_ble_eq_true rfl⟩

theorem EncodedSize.bitImm (v : Word) : EncodedSize.Statement (.bitImm v) := fun m x => by
  cases m <;> cases x <;> exact ⟨rfl, Nat.le_of_ble_eq_true rfl, Nat.le_of_ble_eq_true rfl⟩

theorem EncodedSize.txa : EncodedSize.Statement .txa := fun _ _ =>
  ⟨rfl, Nat.le_of_ble_eq_true rfl, Nat.le_of_ble_eq_true rfl⟩

theorem EncodedSize.phb : EncodedSize.Statement .phb := fun _ _ =>
  ⟨rfl, Nat.le_of_ble_eq_true rfl, Nat.le_of_ble_eq_true rfl⟩

theorem EncodedSize.styAbs (a : Word) : EncodedSize.Statement (.styAbs a) := fun _ _ =>
  ⟨rfl, Nat.le_of_ble_eq_true rfl, Nat.le_of_ble_eq_true rfl⟩

theorem EncodedSize.staAbs (a : Word) : EncodedSize.Statement (.staAbs a) := fun _ _ =>
  ⟨rfl, Nat.le_of_ble_eq_true rfl, Nat.le_of_ble_eq_true rfl⟩

theorem EncodedSize.stxAbs (a : Word) : EncodedSize.Statement (.stxAbs a) := fun _ _ =>
  ⟨rfl, Nat.le_of_ble_eq_true rfl, Nat.le_of_ble_eq_true rfl⟩

theorem EncodedSize.staLong (al : Addr) : EncodedSize.Statement (.staLong al) := fun _ _ =>
  ⟨rfl, Nat.le_of_ble_eq_true rfl, Nat.le_of_ble_eq_true rfl⟩

theorem EncodedSize.bcc (o : Byte) : EncodedSize.Statement (.bcc o) := fun _ _ =>
  ⟨rfl, Nat.le_of_ble_eq_true rfl, Nat.le_of_ble_eq_true rfl⟩

theorem EncodedSize.staIdpy (d : Byte) : EncodedSize.Statement (.staIdpy d) := fun _ _ =>
  ⟨rfl, Nat.le_of_ble_eq_true rfl, Nat.le_of_ble_eq_true rfl⟩

theorem EncodedSize.staIdp (d : Byte) : EncodedSize.Statement (.staIdp d) := fun _ _ =>
  ⟨rfl, Nat.le_of_ble_eq_true rfl, Nat.le_of_ble_eq_true rfl⟩

theorem EncodedSize.staIsry (d : Byte) : EncodedSize.Statement (.staIsry d) := fun _ _ =>
  ⟨rfl, Nat.le_of_ble_eq_true rfl, Nat.le_of_ble_eq_true rfl⟩

theorem EncodedSize.styDpx (d : Byte) : EncodedSize.Statement (.styDpx d) := fun _ _ =>
  ⟨rfl, Nat.le_of_ble_eq_true rfl, Nat.le_of_ble_eq_true rfl⟩

theorem EncodedSize.staDpx (d : Byte) : EncodedSize.Statement (.staDpx d) := fun _ _ =>
  ⟨rfl, Nat.le_of_ble_eq_true rfl, Nat.le_of_ble_eq_true rfl⟩

theorem EncodedSize.stxDpy (d : Byte) : EncodedSize.Statement (.stxDpy d) := fun _ _ =>
  ⟨rfl, Nat.le_of_ble_eq_true rfl, Nat.le_of_ble_eq_true rfl⟩

theorem EncodedSize.staIldpy (d : Byte) : EncodedSize.Statement (.staIldpy d) := fun _ _ =>
  ⟨rfl, Nat.le_of_ble_eq_true rfl, Nat.le_of_ble_eq_true rfl⟩

theorem EncodedSize.tya : EncodedSize.Statement .tya := fun _ _ =>
  ⟨rfl, Nat.le_of_ble_eq_true rfl, Nat.le_of_ble_eq_true rfl⟩

theorem EncodedSize.staAbsy (a : Word) : EncodedSize.Statement (.staAbsy a) := fun _ _ =>
  ⟨rfl, Nat.le_of_ble_eq_true rfl, Nat.le_of_ble_eq_true rfl⟩

theorem EncodedSize.txs : EncodedSize.Statement .txs := fun _ _ =>
  ⟨rfl, Nat.le_of_ble_eq_true rfl, Nat.le_of_ble_eq_true rfl⟩

theorem EncodedSize.txy : EncodedSize.Statement .txy := fun _ _ =>
  ⟨rfl, Nat.le_of_ble_eq_true rfl, Nat.le_of_ble_eq_true rfl⟩

theorem EncodedSize.stzAbs (a : Word) : EncodedSize.Statement (.stzAbs a) := fun _ _ =>
  ⟨rfl, Nat.le_of_ble_eq_true rfl, Nat.le_of_ble_eq_true rfl⟩

theorem EncodedSize.staAbsx (a : Word) : EncodedSize.Statement (.staAbsx a) := fun _ _ =>
  ⟨rfl, Nat.le_of_ble_eq_true rfl, Nat.le_of_ble_eq_true rfl⟩

theorem EncodedSize.stzAbsx (a : Word) : EncodedSize.Statement (.stzAbsx a) := fun _ _ =>
  ⟨rfl, Nat.le_of_ble_eq_true rfl, Nat.le_of_ble_eq_true rfl⟩

theorem EncodedSize.staLongx (al : Addr) : EncodedSize.Statement (.staLongx al) := fun _ _ =>
  ⟨rfl, Nat.le_of_ble_eq_true rfl, Nat.le_of_ble_eq_true rfl⟩

theorem EncodedSize.ldyImm (v : Word) : EncodedSize.Statement (.ldyImm v) := fun m x => by
  cases m <;> cases x <;> exact ⟨rfl, Nat.le_of_ble_eq_true rfl, Nat.le_of_ble_eq_true rfl⟩

theorem EncodedSize.ldaIdpx (d : Byte) : EncodedSize.Statement (.ldaIdpx d) := fun _ _ =>
  ⟨rfl, Nat.le_of_ble_eq_true rfl, Nat.le_of_ble_eq_true rfl⟩

theorem EncodedSize.ldxImm (v : Word) : EncodedSize.Statement (.ldxImm v) := fun m x => by
  cases m <;> cases x <;> exact ⟨rfl, Nat.le_of_ble_eq_true rfl, Nat.le_of_ble_eq_true rfl⟩

theorem EncodedSize.ldaSr (d : Byte) : EncodedSize.Statement (.ldaSr d) := fun _ _ =>
  ⟨rfl, Nat.le_of_ble_eq_true rfl, Nat.le_of_ble_eq_true rfl⟩

theorem EncodedSize.ldyDp (d : Byte) : EncodedSize.Statement (.ldyDp d) := fun _ _ =>
  ⟨rfl, Nat.le_of_ble_eq_true rfl, Nat.le_of_ble_eq_true rfl⟩

theorem EncodedSize.ldaDp (d : Byte) : EncodedSize.Statement (.ldaDp d) := fun _ _ =>
  ⟨rfl, Nat.le_of_ble_eq_true rfl, Nat.le_of_ble_eq_true rfl⟩

theorem EncodedSize.ldxDp (d : Byte) : EncodedSize.Statement (.ldxDp d) := fun _ _ =>
  ⟨rfl, Nat.le_of_ble_eq_true rfl, Nat.le_of_ble_eq_true rfl⟩

theorem EncodedSize.ldaIldp (d : Byte) : EncodedSize.Statement (.ldaIldp d) := fun _ _ =>
  ⟨rfl, Nat.le_of_ble_eq_true rfl, Nat.le_of_ble_eq_true rfl⟩

theorem EncodedSize.tay : EncodedSize.Statement .tay := fun _ _ =>
  ⟨rfl, Nat.le_of_ble_eq_true rfl, Nat.le_of_ble_eq_true rfl⟩

theorem EncodedSize.ldaImm (v : Word) : EncodedSize.Statement (.ldaImm v) := fun m x => by
  cases m <;> cases x <;> exact ⟨rfl, Nat.le_of_ble_eq_true rfl, Nat.le_of_ble_eq_true rfl⟩

theorem EncodedSize.tax : EncodedSize.Statement .tax := fun _ _ =>
  ⟨rfl, Nat.le_of_ble_eq_true rfl, Nat.le_of_ble_eq_true rfl⟩

theorem EncodedSize.plb : EncodedSize.Statement .plb := fun _ _ =>
  ⟨rfl, Nat.le_of_ble_eq_true rfl, Nat.le_of_ble_eq_true rfl⟩

theorem EncodedSize.ldyAbs (a : Word) : EncodedSize.Statement (.ldyAbs a) := fun _ _ =>
  ⟨rfl, Nat.le_of_ble_eq_true rfl, Nat.le_of_ble_eq_true rfl⟩

theorem EncodedSize.ldaAbs (a : Word) : EncodedSize.Statement (.ldaAbs a) := fun _ _ =>
  ⟨rfl, Nat.le_of_ble_eq_true rfl, Nat.le_of_ble_eq_true rfl⟩

theorem EncodedSize.ldxAbs (a : Word) : EncodedSize.Statement (.ldxAbs a) := fun _ _ =>
  ⟨rfl, Nat.le_of_ble_eq_true rfl, Nat.le_of_ble_eq_true rfl⟩

theorem EncodedSize.ldaLong (al : Addr) : EncodedSize.Statement (.ldaLong al) := fun _ _ =>
  ⟨rfl, Nat.le_of_ble_eq_true rfl, Nat.le_of_ble_eq_true rfl⟩

theorem EncodedSize.bcs (o : Byte) : EncodedSize.Statement (.bcs o) := fun _ _ =>
  ⟨rfl, Nat.le_of_ble_eq_true rfl, Nat.le_of_ble_eq_true rfl⟩

theorem EncodedSize.ldaIdpy (d : Byte) : EncodedSize.Statement (.ldaIdpy d) := fun _ _ =>
  ⟨rfl, Nat.le_of_ble_eq_true rfl, Nat.le_of_ble_eq_true rfl⟩

theorem EncodedSize.ldaIdp (d : Byte) : EncodedSize.Statement (.ldaIdp d) := fun _ _ =>
  ⟨rfl, Nat.le_of_ble_eq_true rfl, Nat.le_of_ble_eq_true rfl⟩

theorem EncodedSize.ldaIsry (d : Byte) : EncodedSize.Statement (.ldaIsry d) := fun _ _ =>
  ⟨rfl, Nat.le_of_ble_eq_true rfl, Nat.le_of_ble_eq_true rfl⟩

theorem EncodedSize.ldyDpx (d : Byte) : EncodedSize.Statement (.ldyDpx d) := fun _ _ =>
  ⟨rfl, Nat.le_of_ble_eq_true rfl, Nat.le_of_ble_eq_true rfl⟩

theorem EncodedSize.ldaDpx (d : Byte) : EncodedSize.Statement (.ldaDpx d) := fun _ _ =>
  ⟨rfl, Nat.le_of_ble_eq_true rfl, Nat.le_of_ble_eq_true rfl⟩

theorem EncodedSize.ldxDpy (d : Byte) : EncodedSize.Statement (.ldxDpy d) := fun _ _ =>
  ⟨rfl, Nat.le_of_ble_eq_true rfl, Nat.le_of_ble_eq_true rfl⟩

theorem EncodedSize.ldaIldpy (d : Byte) : EncodedSize.Statement (.ldaIldpy d) := fun _ _ =>
  ⟨rfl, Nat.le_of_ble_eq_true rfl, Nat.le_of_ble_eq_true rfl⟩

theorem EncodedSize.clv : EncodedSize.Statement .clv := fun _ _ =>
  ⟨rfl, Nat.le_of_ble_eq_true rfl, Nat.le_of_ble_eq_true rfl⟩

theorem EncodedSize.ldaAbsy (a : Word) : EncodedSize.Statement (.ldaAbsy a) := fun _ _ =>
  ⟨rfl, Nat.le_of_ble_eq_true rfl, Nat.le_of_ble_eq_true rfl⟩

theorem EncodedSize.tsx : EncodedSize.Statement .tsx := fun _ _ =>
  ⟨rfl, Nat.le_of_ble_eq_true rfl, Nat.le_of_ble_eq_true rfl⟩

theorem EncodedSize.tyx : EncodedSize.Statement .tyx := fun _ _ =>
  ⟨rfl, Nat.le_of_ble_eq_true rfl, Nat.le_of_ble_eq_true rfl⟩

theorem EncodedSize.ldyAbsx (a : Word) : EncodedSize.Statement (.ldyAbsx a) := fun _ _ =>
  ⟨rfl, Nat.le_of_ble_eq_true rfl, Nat.le_of_ble_eq_true rfl⟩

theorem EncodedSize.ldaAbsx (a : Word) : EncodedSize.Statement (.ldaAbsx a) := fun _ _ =>
  ⟨rfl, Nat.le_of_ble_eq_true rfl, Nat.le_of_ble_eq_true rfl⟩

theorem EncodedSize.ldxAbsy (a : Word) : EncodedSize.Statement (.ldxAbsy a) := fun _ _ =>
  ⟨rfl, Nat.le_of_ble_eq_true rfl, Nat.le_of_ble_eq_true rfl⟩

theorem EncodedSize.ldaLongx (al : Addr) : EncodedSize.Statement (.ldaLongx al) := fun _ _ =>
  ⟨rfl, Nat.le_of_ble_eq_true rfl, Nat.le_of_ble_eq_true rfl⟩

theorem EncodedSize.cpyImm (v : Word) : EncodedSize.Statement (.cpyImm v) := fun m x => by
  cases m <;> cases x <;> exact ⟨rfl, Nat.le_of_ble_eq_true rfl, Nat.le_of_ble_eq_true rfl⟩

theorem EncodedSize.cmpIdpx (d : Byte) : EncodedSize.Statement (.cmpIdpx d) := fun _ _ =>
  ⟨rfl, Nat.le_of_ble_eq_true rfl, Nat.le_of_ble_eq_true rfl⟩

theorem EncodedSize.rep (k : Byte) : EncodedSize.Statement (.rep k) := fun _ _ =>
  ⟨rfl, Nat.le_of_ble_eq_true rfl, Nat.le_of_ble_eq_true rfl⟩

theorem EncodedSize.cmpSr (d : Byte) : EncodedSize.Statement (.cmpSr d) := fun _ _ =>
  ⟨rfl, Nat.le_of_ble_eq_true rfl, Nat.le_of_ble_eq_true rfl⟩

theorem EncodedSize.cpyDp (d : Byte) : EncodedSize.Statement (.cpyDp d) := fun _ _ =>
  ⟨rfl, Nat.le_of_ble_eq_true rfl, Nat.le_of_ble_eq_true rfl⟩

theorem EncodedSize.cmpDp (d : Byte) : EncodedSize.Statement (.cmpDp d) := fun _ _ =>
  ⟨rfl, Nat.le_of_ble_eq_true rfl, Nat.le_of_ble_eq_true rfl⟩

theorem EncodedSize.decDp (d : Byte) : EncodedSize.Statement (.decDp d) := fun _ _ =>
  ⟨rfl, Nat.le_of_ble_eq_true rfl, Nat.le_of_ble_eq_true rfl⟩

theorem EncodedSize.cmpIldp (d : Byte) : EncodedSize.Statement (.cmpIldp d) := fun _ _ =>
  ⟨rfl, Nat.le_of_ble_eq_true rfl, Nat.le_of_ble_eq_true rfl⟩

theorem EncodedSize.iny : EncodedSize.Statement .iny := fun _ _ =>
  ⟨rfl, Nat.le_of_ble_eq_true rfl, Nat.le_of_ble_eq_true rfl⟩

theorem EncodedSize.cmpImm (v : Word) : EncodedSize.Statement (.cmpImm v) := fun m x => by
  cases m <;> cases x <;> exact ⟨rfl, Nat.le_of_ble_eq_true rfl, Nat.le_of_ble_eq_true rfl⟩

theorem EncodedSize.dex : EncodedSize.Statement .dex := fun _ _ =>
  ⟨rfl, Nat.le_of_ble_eq_true rfl, Nat.le_of_ble_eq_true rfl⟩

theorem EncodedSize.wai : EncodedSize.Statement .wai := fun _ _ =>
  ⟨rfl, Nat.le_of_ble_eq_true rfl, Nat.le_of_ble_eq_true rfl⟩

theorem EncodedSize.cpyAbs (a : Word) : EncodedSize.Statement (.cpyAbs a) := fun _ _ =>
  ⟨rfl, Nat.le_of_ble_eq_true rfl, Nat.le_of_ble_eq_true rfl⟩

theorem EncodedSize.cmpAbs (a : Word) : EncodedSize.Statement (.cmpAbs a) := fun _ _ =>
  ⟨rfl, Nat.le_of_ble_eq_true rfl, Nat.le_of_ble_eq_true rfl⟩

theorem EncodedSize.decAbs (a : Word) : EncodedSize.Statement (.decAbs a) := fun _ _ =>
  ⟨rfl, Nat.le_of_ble_eq_true rfl, Nat.le_of_ble_eq_true rfl⟩

theorem EncodedSize.cmpLong (al : Addr) : EncodedSize.Statement (.cmpLong al) := fun _ _ =>
  ⟨rfl, Nat.le_of_ble_eq_true rfl, Nat.le_of_ble_eq_true rfl⟩

theorem EncodedSize.bne (o : Byte) : EncodedSize.Statement (.bne o) := fun _ _ =>
  ⟨rfl, Nat.le_of_ble_eq_true rfl, Nat.le_of_ble_eq_true rfl⟩

theorem EncodedSize.cmpIdpy (d : Byte) : EncodedSize.Statement (.cmpIdpy d) := fun _ _ =>
  ⟨rfl, Nat.le_of_ble_eq_true rfl, Nat.le_of_ble_eq_true rfl⟩

theorem EncodedSize.cmpIdp (d : Byte) : EncodedSize.Statement (.cmpIdp d) := fun _ _ =>
  ⟨rfl, Nat.le_of_ble_eq_true rfl, Nat.le_of_ble_eq_true rfl⟩

theorem EncodedSize.cmpIsry (d : Byte) : EncodedSize.Statement (.cmpIsry d) := fun _ _ =>
  ⟨rfl, Nat.le_of_ble_eq_true rfl, Nat.le_of_ble_eq_true rfl⟩

theorem EncodedSize.pei (d : Byte) : EncodedSize.Statement (.pei d) := fun _ _ =>
  ⟨rfl, Nat.le_of_ble_eq_true rfl, Nat.le_of_ble_eq_true rfl⟩

theorem EncodedSize.cmpDpx (d : Byte) : EncodedSize.Statement (.cmpDpx d) := fun _ _ =>
  ⟨rfl, Nat.le_of_ble_eq_true rfl, Nat.le_of_ble_eq_true rfl⟩

theorem EncodedSize.decDpx (d : Byte) : EncodedSize.Statement (.decDpx d) := fun _ _ =>
  ⟨rfl, Nat.le_of_ble_eq_true rfl, Nat.le_of_ble_eq_true rfl⟩

theorem EncodedSize.cmpIldpy (d : Byte) : EncodedSize.Statement (.cmpIldpy d) := fun _ _ =>
  ⟨rfl, Nat.le_of_ble_eq_true rfl, Nat.le_of_ble_eq_true rfl⟩

theorem EncodedSize.cld : EncodedSize.Statement .cld := fun _ _ =>
  ⟨rfl, Nat.le_of_ble_eq_true rfl, Nat.le_of_ble_eq_true rfl⟩

theorem EncodedSize.cmpAbsy (a : Word) : EncodedSize.Statement (.cmpAbsy a) := fun _ _ =>
  ⟨rfl, Nat.le_of_ble_eq_true rfl, Nat.le_of_ble_eq_true rfl⟩

theorem EncodedSize.phx : EncodedSize.Statement .phx := fun _ _ =>
  ⟨rfl, Nat.le_of_ble_eq_true rfl, Nat.le_of_ble_eq_true rfl⟩

theorem EncodedSize.stp : EncodedSize.Statement .stp := fun _ _ =>
  ⟨rfl, Nat.le_of_ble_eq_true rfl, Nat.le_of_ble_eq_true rfl⟩

theorem EncodedSize.jmlIndl (a : Word) : EncodedSize.Statement (.jmlIndl a) := fun _ _ =>
  ⟨rfl, Nat.le_of_ble_eq_true rfl, Nat.le_of_ble_eq_true rfl⟩

theorem EncodedSize.cmpAbsx (a : Word) : EncodedSize.Statement (.cmpAbsx a) := fun _ _ =>
  ⟨rfl, Nat.le_of_ble_eq_true rfl, Nat.le_of_ble_eq_true rfl⟩

theorem EncodedSize.decAbsx (a : Word) : EncodedSize.Statement (.decAbsx a) := fun _ _ =>
  ⟨rfl, Nat.le_of_ble_eq_true rfl, Nat.le_of_ble_eq_true rfl⟩

theorem EncodedSize.cmpLongx (al : Addr) : EncodedSize.Statement (.cmpLongx al) := fun _ _ =>
  ⟨rfl, Nat.le_of_ble_eq_true rfl, Nat.le_of_ble_eq_true rfl⟩

theorem EncodedSize.cpxImm (v : Word) : EncodedSize.Statement (.cpxImm v) := fun m x => by
  cases m <;> cases x <;> exact ⟨rfl, Nat.le_of_ble_eq_true rfl, Nat.le_of_ble_eq_true rfl⟩

theorem EncodedSize.sbcIdpx (d : Byte) : EncodedSize.Statement (.sbcIdpx d) := fun _ _ =>
  ⟨rfl, Nat.le_of_ble_eq_true rfl, Nat.le_of_ble_eq_true rfl⟩

theorem EncodedSize.sep (k : Byte) : EncodedSize.Statement (.sep k) := fun _ _ =>
  ⟨rfl, Nat.le_of_ble_eq_true rfl, Nat.le_of_ble_eq_true rfl⟩

theorem EncodedSize.sbcSr (d : Byte) : EncodedSize.Statement (.sbcSr d) := fun _ _ =>
  ⟨rfl, Nat.le_of_ble_eq_true rfl, Nat.le_of_ble_eq_true rfl⟩

theorem EncodedSize.cpxDp (d : Byte) : EncodedSize.Statement (.cpxDp d) := fun _ _ =>
  ⟨rfl, Nat.le_of_ble_eq_true rfl, Nat.le_of_ble_eq_true rfl⟩

theorem EncodedSize.sbcDp (d : Byte) : EncodedSize.Statement (.sbcDp d) := fun _ _ =>
  ⟨rfl, Nat.le_of_ble_eq_true rfl, Nat.le_of_ble_eq_true rfl⟩

theorem EncodedSize.incDp (d : Byte) : EncodedSize.Statement (.incDp d) := fun _ _ =>
  ⟨rfl, Nat.le_of_ble_eq_true rfl, Nat.le_of_ble_eq_true rfl⟩

theorem EncodedSize.sbcIldp (d : Byte) : EncodedSize.Statement (.sbcIldp d) := fun _ _ =>
  ⟨rfl, Nat.le_of_ble_eq_true rfl, Nat.le_of_ble_eq_true rfl⟩

theorem EncodedSize.inx : EncodedSize.Statement .inx := fun _ _ =>
  ⟨rfl, Nat.le_of_ble_eq_true rfl, Nat.le_of_ble_eq_true rfl⟩

theorem EncodedSize.sbcImm (v : Word) : EncodedSize.Statement (.sbcImm v) := fun m x => by
  cases m <;> cases x <;> exact ⟨rfl, Nat.le_of_ble_eq_true rfl, Nat.le_of_ble_eq_true rfl⟩

theorem EncodedSize.nop : EncodedSize.Statement .nop := fun _ _ =>
  ⟨rfl, Nat.le_of_ble_eq_true rfl, Nat.le_of_ble_eq_true rfl⟩

theorem EncodedSize.xba : EncodedSize.Statement .xba := fun _ _ =>
  ⟨rfl, Nat.le_of_ble_eq_true rfl, Nat.le_of_ble_eq_true rfl⟩

theorem EncodedSize.cpxAbs (a : Word) : EncodedSize.Statement (.cpxAbs a) := fun _ _ =>
  ⟨rfl, Nat.le_of_ble_eq_true rfl, Nat.le_of_ble_eq_true rfl⟩

theorem EncodedSize.sbcAbs (a : Word) : EncodedSize.Statement (.sbcAbs a) := fun _ _ =>
  ⟨rfl, Nat.le_of_ble_eq_true rfl, Nat.le_of_ble_eq_true rfl⟩

theorem EncodedSize.incAbs (a : Word) : EncodedSize.Statement (.incAbs a) := fun _ _ =>
  ⟨rfl, Nat.le_of_ble_eq_true rfl, Nat.le_of_ble_eq_true rfl⟩

theorem EncodedSize.sbcLong (al : Addr) : EncodedSize.Statement (.sbcLong al) := fun _ _ =>
  ⟨rfl, Nat.le_of_ble_eq_true rfl, Nat.le_of_ble_eq_true rfl⟩

theorem EncodedSize.beq (o : Byte) : EncodedSize.Statement (.beq o) := fun _ _ =>
  ⟨rfl, Nat.le_of_ble_eq_true rfl, Nat.le_of_ble_eq_true rfl⟩

theorem EncodedSize.sbcIdpy (d : Byte) : EncodedSize.Statement (.sbcIdpy d) := fun _ _ =>
  ⟨rfl, Nat.le_of_ble_eq_true rfl, Nat.le_of_ble_eq_true rfl⟩

theorem EncodedSize.sbcIdp (d : Byte) : EncodedSize.Statement (.sbcIdp d) := fun _ _ =>
  ⟨rfl, Nat.le_of_ble_eq_true rfl, Nat.le_of_ble_eq_true rfl⟩

theorem EncodedSize.sbcIsry (d : Byte) : EncodedSize.Statement (.sbcIsry d) := fun _ _ =>
  ⟨rfl, Nat.le_of_ble_eq_true rfl, Nat.le_of_ble_eq_true rfl⟩

theorem EncodedSize.pea (v : Word) : EncodedSize.Statement (.pea v) := fun _ _ =>
  ⟨rfl, Nat.le_of_ble_eq_true rfl, Nat.le_of_ble_eq_true rfl⟩

theorem EncodedSize.sbcDpx (d : Byte) : EncodedSize.Statement (.sbcDpx d) := fun _ _ =>
  ⟨rfl, Nat.le_of_ble_eq_true rfl, Nat.le_of_ble_eq_true rfl⟩

theorem EncodedSize.incDpx (d : Byte) : EncodedSize.Statement (.incDpx d) := fun _ _ =>
  ⟨rfl, Nat.le_of_ble_eq_true rfl, Nat.le_of_ble_eq_true rfl⟩

theorem EncodedSize.sbcIldpy (d : Byte) : EncodedSize.Statement (.sbcIldpy d) := fun _ _ =>
  ⟨rfl, Nat.le_of_ble_eq_true rfl, Nat.le_of_ble_eq_true rfl⟩

theorem EncodedSize.sed : EncodedSize.Statement .sed := fun _ _ =>
  ⟨rfl, Nat.le_of_ble_eq_true rfl, Nat.le_of_ble_eq_true rfl⟩

theorem EncodedSize.sbcAbsy (a : Word) : EncodedSize.Statement (.sbcAbsy a) := fun _ _ =>
  ⟨rfl, Nat.le_of_ble_eq_true rfl, Nat.le_of_ble_eq_true rfl⟩

theorem EncodedSize.plx : EncodedSize.Statement .plx := fun _ _ =>
  ⟨rfl, Nat.le_of_ble_eq_true rfl, Nat.le_of_ble_eq_true rfl⟩

theorem EncodedSize.xce : EncodedSize.Statement .xce := fun _ _ =>
  ⟨rfl, Nat.le_of_ble_eq_true rfl, Nat.le_of_ble_eq_true rfl⟩

theorem EncodedSize.jsrIndx (a : Word) : EncodedSize.Statement (.jsrIndx a) := fun _ _ =>
  ⟨rfl, Nat.le_of_ble_eq_true rfl, Nat.le_of_ble_eq_true rfl⟩

theorem EncodedSize.sbcAbsx (a : Word) : EncodedSize.Statement (.sbcAbsx a) := fun _ _ =>
  ⟨rfl, Nat.le_of_ble_eq_true rfl, Nat.le_of_ble_eq_true rfl⟩

theorem EncodedSize.incAbsx (a : Word) : EncodedSize.Statement (.incAbsx a) := fun _ _ =>
  ⟨rfl, Nat.le_of_ble_eq_true rfl, Nat.le_of_ble_eq_true rfl⟩

theorem EncodedSize.sbcLongx (al : Addr) : EncodedSize.Statement (.sbcLongx al) := fun _ _ =>
  ⟨rfl, Nat.le_of_ble_eq_true rfl, Nat.le_of_ble_eq_true rfl⟩

end Sys2Proof.Laws

namespace Sys2Proof.Machine

/-- Mnemonic, opcode and mode of row 0x of the opcode map (R105). -/
def formRow0 : List (Mnemonic × Byte × Format) :=
  [(.brk, 0x00, .sig), (.ora, 0x01, .idpx), (.cop, 0x02, .sig), (.ora, 0x03, .sr), (.tsb, 0x04, .dp),
   (.ora, 0x05, .dp), (.asl, 0x06, .dp), (.ora, 0x07, .ildp), (.php, 0x08, .imp), (.ora, 0x09, .immM),
   (.asl, 0x0A, .acc), (.phd, 0x0B, .imp), (.tsb, 0x0C, .abs), (.ora, 0x0D, .abs), (.asl, 0x0E, .abs),
   (.ora, 0x0F, .long)]

/-- Mnemonic, opcode and mode of row 1x of the opcode map (R105). -/
def formRow1 : List (Mnemonic × Byte × Format) :=
  [(.bpl, 0x10, .rel8), (.ora, 0x11, .idpy), (.ora, 0x12, .idp), (.ora, 0x13, .isry), (.trb, 0x14, .dp),
   (.ora, 0x15, .dpx), (.asl, 0x16, .dpx), (.ora, 0x17, .ildpy), (.clc, 0x18, .imp), (.ora, 0x19, .absy),
   (.inc, 0x1A, .acc), (.tcs, 0x1B, .imp), (.trb, 0x1C, .abs), (.ora, 0x1D, .absx), (.asl, 0x1E, .absx),
   (.ora, 0x1F, .longx)]

/-- Mnemonic, opcode and mode of row 2x of the opcode map (R105). -/
def formRow2 : List (Mnemonic × Byte × Format) :=
  [(.jsr, 0x20, .abs), (.and, 0x21, .idpx), (.jsl, 0x22, .long), (.and, 0x23, .sr), (.bit, 0x24, .dp),
   (.and, 0x25, .dp), (.rol, 0x26, .dp), (.and, 0x27, .ildp), (.plp, 0x28, .imp), (.and, 0x29, .immM),
   (.rol, 0x2A, .acc), (.pld, 0x2B, .imp), (.bit, 0x2C, .abs), (.and, 0x2D, .abs), (.rol, 0x2E, .abs),
   (.and, 0x2F, .long)]

/-- Mnemonic, opcode and mode of row 3x of the opcode map (R105). -/
def formRow3 : List (Mnemonic × Byte × Format) :=
  [(.bmi, 0x30, .rel8), (.and, 0x31, .idpy), (.and, 0x32, .idp), (.and, 0x33, .isry), (.bit, 0x34, .dpx),
   (.and, 0x35, .dpx), (.rol, 0x36, .dpx), (.and, 0x37, .ildpy), (.sec, 0x38, .imp), (.and, 0x39, .absy),
   (.dec, 0x3A, .acc), (.tsc, 0x3B, .imp), (.bit, 0x3C, .absx), (.and, 0x3D, .absx), (.rol, 0x3E, .absx),
   (.and, 0x3F, .longx)]

/-- Mnemonic, opcode and mode of row 4x of the opcode map (R105). -/
def formRow4 : List (Mnemonic × Byte × Format) :=
  [(.rti, 0x40, .imp), (.eor, 0x41, .idpx), (.wdm, 0x42, .sig), (.eor, 0x43, .sr), (.mvp, 0x44, .blk),
   (.eor, 0x45, .dp), (.lsr, 0x46, .dp), (.eor, 0x47, .ildp), (.pha, 0x48, .imp), (.eor, 0x49, .immM),
   (.lsr, 0x4A, .acc), (.phk, 0x4B, .imp), (.jmp, 0x4C, .abs), (.eor, 0x4D, .abs), (.lsr, 0x4E, .abs),
   (.eor, 0x4F, .long)]

/-- Mnemonic, opcode and mode of row 5x of the opcode map (R105). -/
def formRow5 : List (Mnemonic × Byte × Format) :=
  [(.bvc, 0x50, .rel8), (.eor, 0x51, .idpy), (.eor, 0x52, .idp), (.eor, 0x53, .isry), (.mvn, 0x54, .blk),
   (.eor, 0x55, .dpx), (.lsr, 0x56, .dpx), (.eor, 0x57, .ildpy), (.cli, 0x58, .imp), (.eor, 0x59, .absy),
   (.phy, 0x5A, .imp), (.tcd, 0x5B, .imp), (.jml, 0x5C, .long), (.eor, 0x5D, .absx), (.lsr, 0x5E, .absx),
   (.eor, 0x5F, .longx)]

/-- Mnemonic, opcode and mode of row 6x of the opcode map (R105). -/
def formRow6 : List (Mnemonic × Byte × Format) :=
  [(.rts, 0x60, .imp), (.adc, 0x61, .idpx), (.per, 0x62, .rel16), (.adc, 0x63, .sr), (.stz, 0x64, .dp),
   (.adc, 0x65, .dp), (.ror, 0x66, .dp), (.adc, 0x67, .ildp), (.pla, 0x68, .imp), (.adc, 0x69, .immM),
   (.ror, 0x6A, .acc), (.rtl, 0x6B, .imp), (.jmp, 0x6C, .ind), (.adc, 0x6D, .abs), (.ror, 0x6E, .abs),
   (.adc, 0x6F, .long)]

/-- Mnemonic, opcode and mode of row 7x of the opcode map (R105). -/
def formRow7 : List (Mnemonic × Byte × Format) :=
  [(.bvs, 0x70, .rel8), (.adc, 0x71, .idpy), (.adc, 0x72, .idp), (.adc, 0x73, .isry), (.stz, 0x74, .dpx),
   (.adc, 0x75, .dpx), (.ror, 0x76, .dpx), (.adc, 0x77, .ildpy), (.sei, 0x78, .imp), (.adc, 0x79, .absy),
   (.ply, 0x7A, .imp), (.tdc, 0x7B, .imp), (.jmp, 0x7C, .indx), (.adc, 0x7D, .absx), (.ror, 0x7E, .absx),
   (.adc, 0x7F, .longx)]

/-- Mnemonic, opcode and mode of row 8x of the opcode map (R105). -/
def formRow8 : List (Mnemonic × Byte × Format) :=
  [(.bra, 0x80, .rel8), (.sta, 0x81, .idpx), (.brl, 0x82, .rel16), (.sta, 0x83, .sr), (.sty, 0x84, .dp),
   (.sta, 0x85, .dp), (.stx, 0x86, .dp), (.sta, 0x87, .ildp), (.dey, 0x88, .imp), (.bit, 0x89, .immM),
   (.txa, 0x8A, .imp), (.phb, 0x8B, .imp), (.sty, 0x8C, .abs), (.sta, 0x8D, .abs), (.stx, 0x8E, .abs),
   (.sta, 0x8F, .long)]

/-- Mnemonic, opcode and mode of row 9x of the opcode map (R105). -/
def formRow9 : List (Mnemonic × Byte × Format) :=
  [(.bcc, 0x90, .rel8), (.sta, 0x91, .idpy), (.sta, 0x92, .idp), (.sta, 0x93, .isry), (.sty, 0x94, .dpx),
   (.sta, 0x95, .dpx), (.stx, 0x96, .dpy), (.sta, 0x97, .ildpy), (.tya, 0x98, .imp), (.sta, 0x99, .absy),
   (.txs, 0x9A, .imp), (.txy, 0x9B, .imp), (.stz, 0x9C, .abs), (.sta, 0x9D, .absx), (.stz, 0x9E, .absx),
   (.sta, 0x9F, .longx)]

/-- Mnemonic, opcode and mode of row Ax of the opcode map (R105). -/
def formRowA : List (Mnemonic × Byte × Format) :=
  [(.ldy, 0xA0, .immX), (.lda, 0xA1, .idpx), (.ldx, 0xA2, .immX), (.lda, 0xA3, .sr), (.ldy, 0xA4, .dp),
   (.lda, 0xA5, .dp), (.ldx, 0xA6, .dp), (.lda, 0xA7, .ildp), (.tay, 0xA8, .imp), (.lda, 0xA9, .immM),
   (.tax, 0xAA, .imp), (.plb, 0xAB, .imp), (.ldy, 0xAC, .abs), (.lda, 0xAD, .abs), (.ldx, 0xAE, .abs),
   (.lda, 0xAF, .long)]

/-- Mnemonic, opcode and mode of row Bx of the opcode map (R105). -/
def formRowB : List (Mnemonic × Byte × Format) :=
  [(.bcs, 0xB0, .rel8), (.lda, 0xB1, .idpy), (.lda, 0xB2, .idp), (.lda, 0xB3, .isry), (.ldy, 0xB4, .dpx),
   (.lda, 0xB5, .dpx), (.ldx, 0xB6, .dpy), (.lda, 0xB7, .ildpy), (.clv, 0xB8, .imp), (.lda, 0xB9, .absy),
   (.tsx, 0xBA, .imp), (.tyx, 0xBB, .imp), (.ldy, 0xBC, .absx), (.lda, 0xBD, .absx), (.ldx, 0xBE, .absy),
   (.lda, 0xBF, .longx)]

/-- Mnemonic, opcode and mode of row Cx of the opcode map (R105). -/
def formRowC : List (Mnemonic × Byte × Format) :=
  [(.cpy, 0xC0, .immX), (.cmp, 0xC1, .idpx), (.rep, 0xC2, .imm8), (.cmp, 0xC3, .sr), (.cpy, 0xC4, .dp),
   (.cmp, 0xC5, .dp), (.dec, 0xC6, .dp), (.cmp, 0xC7, .ildp), (.iny, 0xC8, .imp), (.cmp, 0xC9, .immM),
   (.dex, 0xCA, .imp), (.wai, 0xCB, .imp), (.cpy, 0xCC, .abs), (.cmp, 0xCD, .abs), (.dec, 0xCE, .abs),
   (.cmp, 0xCF, .long)]

/-- Mnemonic, opcode and mode of row Dx of the opcode map (R105). -/
def formRowD : List (Mnemonic × Byte × Format) :=
  [(.bne, 0xD0, .rel8), (.cmp, 0xD1, .idpy), (.cmp, 0xD2, .idp), (.cmp, 0xD3, .isry), (.pei, 0xD4, .idp),
   (.cmp, 0xD5, .dpx), (.dec, 0xD6, .dpx), (.cmp, 0xD7, .ildpy), (.cld, 0xD8, .imp), (.cmp, 0xD9, .absy),
   (.phx, 0xDA, .imp), (.stp, 0xDB, .imp), (.jml, 0xDC, .indl), (.cmp, 0xDD, .absx), (.dec, 0xDE, .absx),
   (.cmp, 0xDF, .longx)]

/-- Mnemonic, opcode and mode of row Ex of the opcode map (R105). -/
def formRowE : List (Mnemonic × Byte × Format) :=
  [(.cpx, 0xE0, .immX), (.sbc, 0xE1, .idpx), (.sep, 0xE2, .imm8), (.sbc, 0xE3, .sr), (.cpx, 0xE4, .dp),
   (.sbc, 0xE5, .dp), (.inc, 0xE6, .dp), (.sbc, 0xE7, .ildp), (.inx, 0xE8, .imp), (.sbc, 0xE9, .immM),
   (.nop, 0xEA, .imp), (.xba, 0xEB, .imp), (.cpx, 0xEC, .abs), (.sbc, 0xED, .abs), (.inc, 0xEE, .abs),
   (.sbc, 0xEF, .long)]

/-- Mnemonic, opcode and mode of row Fx of the opcode map (R105). -/
def formRowF : List (Mnemonic × Byte × Format) :=
  [(.beq, 0xF0, .rel8), (.sbc, 0xF1, .idpy), (.sbc, 0xF2, .idp), (.sbc, 0xF3, .isry), (.pea, 0xF4, .imm16),
   (.sbc, 0xF5, .dpx), (.inc, 0xF6, .dpx), (.sbc, 0xF7, .ildpy), (.sed, 0xF8, .imp), (.sbc, 0xF9, .absy),
   (.plx, 0xFA, .imp), (.xce, 0xFB, .imp), (.jsr, 0xFC, .indx), (.sbc, 0xFD, .absx), (.inc, 0xFE, .absx),
   (.sbc, 0xFF, .longx)]

/-- Mnemonic, opcode and mode of every instruction (R105). -/
def formTable : List (Mnemonic × Byte × Format) :=
  formRow0 ++ formRow1 ++ formRow2 ++ formRow3 ++ formRow4 ++ formRow5 ++ formRow6 ++ formRow7 ++
  formRow8 ++ formRow9 ++ formRowA ++ formRowB ++ formRowC ++ formRowD ++ formRowE ++ formRowF

/-- The cell of the table an opcode names. -/
def formAt (op : Byte) : Option (Mnemonic × Byte × Format) := formTable[op.toNat]?

theorem formAt_opcode (i : Instr) : formAt i.opcode = some (i.mnemonic, i.opcode, i.operand.format) := by
  cases i <;> rfl

/-- The forms of a mnemonic can be read off the table. -/
theorem hasForms_of_table (mn : Mnemonic) (forms : List (Byte × Format))
    (h : formTable.all (fun r => decide (r.1 = mn ↔ r.2 ∈ forms)) = true) : HasForms mn forms := by
  intro i
  have hi : (i.mnemonic, i.opcode, i.operand.format) ∈ formTable :=
    List.mem_of_getElem? (formAt_opcode i)
  simpa using List.all_eq_true.mp h _ hi

end Sys2Proof.Machine
end

