-- ==== Sys2Proof/Tests/Slice0.lean ====
section
/-! SUPPORT. The model's own tests: expected values are from the spec's opcode table (R105), its worked examples and
its test vectors (95_test_vectors.md); and a witness for every statement that has hypotheses. -/

set_option maxRecDepth 8000

namespace Sys2Proof.Tests

open Sys2Proof.Machine

/-! ## Well-formedness: a check refuses what the encoding has no room for (R102) -/

theorem test_wf_refuses_wide_immediate_m : Instr.wf true true (.ldaImm 0x100) = false := by decide
theorem test_wf_refuses_wide_immediate_x : Instr.wf true true (.ldxImm 0x100) = false := by decide
theorem test_wf_m_does_not_narrow_x : Instr.wf true false (.ldxImm 0x100) = true := by decide
theorem test_wf_x_does_not_narrow_m : Instr.wf false true (.ldaImm 0x100) = true := by decide
theorem test_wf_admits_the_largest : Instr.wf true true (.ldaImm 0xFF) = true := by decide

/-! ## Decoding: every opcode of R105 with operand bytes laid out as R101 and the table's layouts say -/

/-- The bytes decode to the instruction and the instruction encodes to the bytes. -/
def agrees (m x : Bool) (row : List Byte × Instr) : Bool :=
  (match decode m x row.1 with
  | .ok (i, rest) => decide (i = row.2) && rest.isEmpty
  | .error _ => false) && decide (encode m x row.2 = row.1)

theorem test_decode_row_0 : ([
    ([0x00, 0x12], .brk 0x12), ([0x01, 0x12], .oraIdpx 0x12), ([0x02, 0x12], .cop 0x12), ([0x03, 0x12], .oraSr 0x12),
    ([0x04, 0x12], .tsbDp 0x12), ([0x05, 0x12], .oraDp 0x12), ([0x06, 0x12], .aslDp 0x12),
    ([0x07, 0x12], .oraIldp 0x12), ([0x08], .php), ([0x09, 0x12], .oraImm 0x12), ([0x0A], .aslAcc), ([0x0B], .phd),
    ([0x0C, 0x34, 0x12], .tsbAbs 0x1234), ([0x0D, 0x34, 0x12], .oraAbs 0x1234), ([0x0E, 0x34, 0x12], .aslAbs 0x1234),
    ([0x0F, 0x34, 0x12, 0x7E], .oraLong 0x7E1234)
    ] : List (List Byte × Instr)).all (agrees true true) = true := by decide +kernel

theorem test_decode_row_1 : ([
    ([0x10, 0x12], .bpl 0x12), ([0x11, 0x12], .oraIdpy 0x12), ([0x12, 0x12], .oraIdp 0x12),
    ([0x13, 0x12], .oraIsry 0x12), ([0x14, 0x12], .trbDp 0x12), ([0x15, 0x12], .oraDpx 0x12),
    ([0x16, 0x12], .aslDpx 0x12), ([0x17, 0x12], .oraIldpy 0x12), ([0x18], .clc),
    ([0x19, 0x34, 0x12], .oraAbsy 0x1234), ([0x1A], .incAcc), ([0x1B], .tcs), ([0x1C, 0x34, 0x12], .trbAbs 0x1234),
    ([0x1D, 0x34, 0x12], .oraAbsx 0x1234), ([0x1E, 0x34, 0x12], .aslAbsx 0x1234),
    ([0x1F, 0x34, 0x12, 0x7E], .oraLongx 0x7E1234)
    ] : List (List Byte × Instr)).all (agrees true true) = true := by decide +kernel

theorem test_decode_row_2 : ([
    ([0x20, 0x34, 0x12], .jsrAbs 0x1234), ([0x21, 0x12], .andIdpx 0x12), ([0x22, 0x34, 0x12, 0x7E], .jsl 0x7E1234),
    ([0x23, 0x12], .andSr 0x12), ([0x24, 0x12], .bitDp 0x12), ([0x25, 0x12], .andDp 0x12),
    ([0x26, 0x12], .rolDp 0x12), ([0x27, 0x12], .andIldp 0x12), ([0x28], .plp), ([0x29, 0x12], .andImm 0x12),
    ([0x2A], .rolAcc), ([0x2B], .pld), ([0x2C, 0x34, 0x12], .bitAbs 0x1234), ([0x2D, 0x34, 0x12], .andAbs 0x1234),
    ([0x2E, 0x34, 0x12], .rolAbs 0x1234), ([0x2F, 0x34, 0x12, 0x7E], .andLong 0x7E1234)
    ] : List (List Byte × Instr)).all (agrees true true) = true := by decide +kernel

theorem test_decode_row_3 : ([
    ([0x30, 0x12], .bmi 0x12), ([0x31, 0x12], .andIdpy 0x12), ([0x32, 0x12], .andIdp 0x12),
    ([0x33, 0x12], .andIsry 0x12), ([0x34, 0x12], .bitDpx 0x12), ([0x35, 0x12], .andDpx 0x12),
    ([0x36, 0x12], .rolDpx 0x12), ([0x37, 0x12], .andIldpy 0x12), ([0x38], .sec),
    ([0x39, 0x34, 0x12], .andAbsy 0x1234), ([0x3A], .decAcc), ([0x3B], .tsc), ([0x3C, 0x34, 0x12], .bitAbsx 0x1234),
    ([0x3D, 0x34, 0x12], .andAbsx 0x1234), ([0x3E, 0x34, 0x12], .rolAbsx 0x1234),
    ([0x3F, 0x34, 0x12, 0x7E], .andLongx 0x7E1234)
    ] : List (List Byte × Instr)).all (agrees true true) = true := by decide +kernel

theorem test_decode_row_4 : ([
    ([0x40], .rti), ([0x41, 0x12], .eorIdpx 0x12), ([0x42, 0x12], .wdm 0x12), ([0x43, 0x12], .eorSr 0x12),
    ([0x44, 0x7F, 0x7E], .mvp 0x7F 0x7E), ([0x45, 0x12], .eorDp 0x12), ([0x46, 0x12], .lsrDp 0x12),
    ([0x47, 0x12], .eorIldp 0x12), ([0x48], .pha), ([0x49, 0x12], .eorImm 0x12), ([0x4A], .lsrAcc), ([0x4B], .phk),
    ([0x4C, 0x34, 0x12], .jmpAbs 0x1234), ([0x4D, 0x34, 0x12], .eorAbs 0x1234), ([0x4E, 0x34, 0x12], .lsrAbs 0x1234),
    ([0x4F, 0x34, 0x12, 0x7E], .eorLong 0x7E1234)
    ] : List (List Byte × Instr)).all (agrees true true) = true := by decide +kernel

theorem test_decode_row_5 : ([
    ([0x50, 0x12], .bvc 0x12), ([0x51, 0x12], .eorIdpy 0x12), ([0x52, 0x12], .eorIdp 0x12),
    ([0x53, 0x12], .eorIsry 0x12), ([0x54, 0x7F, 0x7E], .mvn 0x7F 0x7E), ([0x55, 0x12], .eorDpx 0x12),
    ([0x56, 0x12], .lsrDpx 0x12), ([0x57, 0x12], .eorIldpy 0x12), ([0x58], .cli),
    ([0x59, 0x34, 0x12], .eorAbsy 0x1234), ([0x5A], .phy), ([0x5B], .tcd),
    ([0x5C, 0x34, 0x12, 0x7E], .jmlLong 0x7E1234), ([0x5D, 0x34, 0x12], .eorAbsx 0x1234),
    ([0x5E, 0x34, 0x12], .lsrAbsx 0x1234), ([0x5F, 0x34, 0x12, 0x7E], .eorLongx 0x7E1234)
    ] : List (List Byte × Instr)).all (agrees true true) = true := by decide +kernel

theorem test_decode_row_6 : ([
    ([0x60], .rts), ([0x61, 0x12], .adcIdpx 0x12), ([0x62, 0x34, 0x12], .per 0x1234), ([0x63, 0x12], .adcSr 0x12),
    ([0x64, 0x12], .stzDp 0x12), ([0x65, 0x12], .adcDp 0x12), ([0x66, 0x12], .rorDp 0x12),
    ([0x67, 0x12], .adcIldp 0x12), ([0x68], .pla), ([0x69, 0x12], .adcImm 0x12), ([0x6A], .rorAcc), ([0x6B], .rtl),
    ([0x6C, 0x34, 0x12], .jmpInd 0x1234), ([0x6D, 0x34, 0x12], .adcAbs 0x1234), ([0x6E, 0x34, 0x12], .rorAbs 0x1234),
    ([0x6F, 0x34, 0x12, 0x7E], .adcLong 0x7E1234)
    ] : List (List Byte × Instr)).all (agrees true true) = true := by decide +kernel

theorem test_decode_row_7 : ([
    ([0x70, 0x12], .bvs 0x12), ([0x71, 0x12], .adcIdpy 0x12), ([0x72, 0x12], .adcIdp 0x12),
    ([0x73, 0x12], .adcIsry 0x12), ([0x74, 0x12], .stzDpx 0x12), ([0x75, 0x12], .adcDpx 0x12),
    ([0x76, 0x12], .rorDpx 0x12), ([0x77, 0x12], .adcIldpy 0x12), ([0x78], .sei),
    ([0x79, 0x34, 0x12], .adcAbsy 0x1234), ([0x7A], .ply), ([0x7B], .tdc), ([0x7C, 0x34, 0x12], .jmpIndx 0x1234),
    ([0x7D, 0x34, 0x12], .adcAbsx 0x1234), ([0x7E, 0x34, 0x12], .rorAbsx 0x1234),
    ([0x7F, 0x34, 0x12, 0x7E], .adcLongx 0x7E1234)
    ] : List (List Byte × Instr)).all (agrees true true) = true := by decide +kernel

theorem test_decode_row_8 : ([
    ([0x80, 0x12], .bra 0x12), ([0x81, 0x12], .staIdpx 0x12), ([0x82, 0x34, 0x12], .brl 0x1234),
    ([0x83, 0x12], .staSr 0x12), ([0x84, 0x12], .styDp 0x12), ([0x85, 0x12], .staDp 0x12),
    ([0x86, 0x12], .stxDp 0x12), ([0x87, 0x12], .staIldp 0x12), ([0x88], .dey), ([0x89, 0x12], .bitImm 0x12),
    ([0x8A], .txa), ([0x8B], .phb), ([0x8C, 0x34, 0x12], .styAbs 0x1234), ([0x8D, 0x34, 0x12], .staAbs 0x1234),
    ([0x8E, 0x34, 0x12], .stxAbs 0x1234), ([0x8F, 0x34, 0x12, 0x7E], .staLong 0x7E1234)
    ] : List (List Byte × Instr)).all (agrees true true) = true := by decide +kernel

theorem test_decode_row_9 : ([
    ([0x90, 0x12], .bcc 0x12), ([0x91, 0x12], .staIdpy 0x12), ([0x92, 0x12], .staIdp 0x12),
    ([0x93, 0x12], .staIsry 0x12), ([0x94, 0x12], .styDpx 0x12), ([0x95, 0x12], .staDpx 0x12),
    ([0x96, 0x12], .stxDpy 0x12), ([0x97, 0x12], .staIldpy 0x12), ([0x98], .tya),
    ([0x99, 0x34, 0x12], .staAbsy 0x1234), ([0x9A], .txs), ([0x9B], .txy), ([0x9C, 0x34, 0x12], .stzAbs 0x1234),
    ([0x9D, 0x34, 0x12], .staAbsx 0x1234), ([0x9E, 0x34, 0x12], .stzAbsx 0x1234),
    ([0x9F, 0x34, 0x12, 0x7E], .staLongx 0x7E1234)
    ] : List (List Byte × Instr)).all (agrees true true) = true := by decide +kernel

theorem test_decode_row_A : ([
    ([0xA0, 0x12], .ldyImm 0x12), ([0xA1, 0x12], .ldaIdpx 0x12), ([0xA2, 0x12], .ldxImm 0x12),
    ([0xA3, 0x12], .ldaSr 0x12), ([0xA4, 0x12], .ldyDp 0x12), ([0xA5, 0x12], .ldaDp 0x12),
    ([0xA6, 0x12], .ldxDp 0x12), ([0xA7, 0x12], .ldaIldp 0x12), ([0xA8], .tay), ([0xA9, 0x12], .ldaImm 0x12),
    ([0xAA], .tax), ([0xAB], .plb), ([0xAC, 0x34, 0x12], .ldyAbs 0x1234), ([0xAD, 0x34, 0x12], .ldaAbs 0x1234),
    ([0xAE, 0x34, 0x12], .ldxAbs 0x1234), ([0xAF, 0x34, 0x12, 0x7E], .ldaLong 0x7E1234)
    ] : List (List Byte × Instr)).all (agrees true true) = true := by decide +kernel

theorem test_decode_row_B : ([
    ([0xB0, 0x12], .bcs 0x12), ([0xB1, 0x12], .ldaIdpy 0x12), ([0xB2, 0x12], .ldaIdp 0x12),
    ([0xB3, 0x12], .ldaIsry 0x12), ([0xB4, 0x12], .ldyDpx 0x12), ([0xB5, 0x12], .ldaDpx 0x12),
    ([0xB6, 0x12], .ldxDpy 0x12), ([0xB7, 0x12], .ldaIldpy 0x12), ([0xB8], .clv),
    ([0xB9, 0x34, 0x12], .ldaAbsy 0x1234), ([0xBA], .tsx), ([0xBB], .tyx), ([0xBC, 0x34, 0x12], .ldyAbsx 0x1234),
    ([0xBD, 0x34, 0x12], .ldaAbsx 0x1234), ([0xBE, 0x34, 0x12], .ldxAbsy 0x1234),
    ([0xBF, 0x34, 0x12, 0x7E], .ldaLongx 0x7E1234)
    ] : List (List Byte × Instr)).all (agrees true true) = true := by decide +kernel

theorem test_decode_row_C : ([
    ([0xC0, 0x12], .cpyImm 0x12), ([0xC1, 0x12], .cmpIdpx 0x12), ([0xC2, 0x12], .rep 0x12),
    ([0xC3, 0x12], .cmpSr 0x12), ([0xC4, 0x12], .cpyDp 0x12), ([0xC5, 0x12], .cmpDp 0x12),
    ([0xC6, 0x12], .decDp 0x12), ([0xC7, 0x12], .cmpIldp 0x12), ([0xC8], .iny), ([0xC9, 0x12], .cmpImm 0x12),
    ([0xCA], .dex), ([0xCB], .wai), ([0xCC, 0x34, 0x12], .cpyAbs 0x1234), ([0xCD, 0x34, 0x12], .cmpAbs 0x1234),
    ([0xCE, 0x34, 0x12], .decAbs 0x1234), ([0xCF, 0x34, 0x12, 0x7E], .cmpLong 0x7E1234)
    ] : List (List Byte × Instr)).all (agrees true true) = true := by decide +kernel

theorem test_decode_row_D : ([
    ([0xD0, 0x12], .bne 0x12), ([0xD1, 0x12], .cmpIdpy 0x12), ([0xD2, 0x12], .cmpIdp 0x12),
    ([0xD3, 0x12], .cmpIsry 0x12), ([0xD4, 0x12], .pei 0x12), ([0xD5, 0x12], .cmpDpx 0x12),
    ([0xD6, 0x12], .decDpx 0x12), ([0xD7, 0x12], .cmpIldpy 0x12), ([0xD8], .cld),
    ([0xD9, 0x34, 0x12], .cmpAbsy 0x1234), ([0xDA], .phx), ([0xDB], .stp), ([0xDC, 0x34, 0x12], .jmlIndl 0x1234),
    ([0xDD, 0x34, 0x12], .cmpAbsx 0x1234), ([0xDE, 0x34, 0x12], .decAbsx 0x1234),
    ([0xDF, 0x34, 0x12, 0x7E], .cmpLongx 0x7E1234)
    ] : List (List Byte × Instr)).all (agrees true true) = true := by decide +kernel

theorem test_decode_row_E : ([
    ([0xE0, 0x12], .cpxImm 0x12), ([0xE1, 0x12], .sbcIdpx 0x12), ([0xE2, 0x12], .sep 0x12),
    ([0xE3, 0x12], .sbcSr 0x12), ([0xE4, 0x12], .cpxDp 0x12), ([0xE5, 0x12], .sbcDp 0x12),
    ([0xE6, 0x12], .incDp 0x12), ([0xE7, 0x12], .sbcIldp 0x12), ([0xE8], .inx), ([0xE9, 0x12], .sbcImm 0x12),
    ([0xEA], .nop), ([0xEB], .xba), ([0xEC, 0x34, 0x12], .cpxAbs 0x1234), ([0xED, 0x34, 0x12], .sbcAbs 0x1234),
    ([0xEE, 0x34, 0x12], .incAbs 0x1234), ([0xEF, 0x34, 0x12, 0x7E], .sbcLong 0x7E1234)
    ] : List (List Byte × Instr)).all (agrees true true) = true := by decide +kernel

theorem test_decode_row_F : ([
    ([0xF0, 0x12], .beq 0x12), ([0xF1, 0x12], .sbcIdpy 0x12), ([0xF2, 0x12], .sbcIdp 0x12),
    ([0xF3, 0x12], .sbcIsry 0x12), ([0xF4, 0x12, 0x34], .pea 0x3412), ([0xF5, 0x12], .sbcDpx 0x12),
    ([0xF6, 0x12], .incDpx 0x12), ([0xF7, 0x12], .sbcIldpy 0x12), ([0xF8], .sed),
    ([0xF9, 0x34, 0x12], .sbcAbsy 0x1234), ([0xFA], .plx), ([0xFB], .xce), ([0xFC, 0x34, 0x12], .jsrIndx 0x1234),
    ([0xFD, 0x34, 0x12], .sbcAbsx 0x1234), ([0xFE, 0x34, 0x12], .incAbsx 0x1234),
    ([0xFF, 0x34, 0x12, 0x7E], .sbcLongx 0x7E1234)
    ] : List (List Byte × Instr)).all (agrees true true) = true := by decide +kernel

theorem test_decode_wide_immediates : ([
    ([0x09, 0x34, 0x12], .oraImm 0x1234), ([0x29, 0x34, 0x12], .andImm 0x1234), ([0x49, 0x34, 0x12], .eorImm 0x1234),
    ([0x69, 0x34, 0x12], .adcImm 0x1234), ([0x89, 0x34, 0x12], .bitImm 0x1234), ([0xA0, 0x34, 0x12], .ldyImm 0x1234),
    ([0xA2, 0x34, 0x12], .ldxImm 0x1234), ([0xA9, 0x34, 0x12], .ldaImm 0x1234), ([0xC0, 0x34, 0x12], .cpyImm 0x1234),
    ([0xC9, 0x34, 0x12], .cmpImm 0x1234), ([0xE0, 0x34, 0x12], .cpxImm 0x1234), ([0xE9, 0x34, 0x12], .sbcImm 0x1234)
    ] : List (List Byte × Instr)).all (agrees false false) = true := by decide +kernel

theorem test_decode_refuses_a_cut_instruction : decode true true [0xAD, 0x34] = .error .truncated := by decide
theorem test_decode_refuses_nothing : decode true true [] = .error .truncated := by decide

/-- The word the host hands over: bit 0 is the least significant bit of the first byte (R105). -/
theorem test_decode_table_word : decodeTableWord 32 0x7E1234AF = some (.ldaLong 0x7E1234) := by decide
theorem test_decode_short_word : decodeTableWord 8 0xAD = some (.ldaAbs 0) := by decide

/-- R109 counts 72 opcodes. -/
theorem test_ext816_count : ((List.range 256).filter fun n => ext816 (BitVec.ofNat 8 n)).length = 72 := by decide +kernel

/-! ## Steps: the spec's test vectors, one step each -/

/-- The start state of the vectors (95_test_vectors.md, part 2). -/
def native : State := { State.reset with e := false, pc := 0x8000, sp := 0x01FF, p := 0 }

/-- `s` with bytes in memory from an address on. -/
def withBytes (s : State) (a : Nat) : List Byte → State
  | [] => s
  | v :: vs => withBytes { s with mem := Memory.set a v s.mem } (a + 1) vs

/-- One step on `s` with code at PC answers a state that passes the test. -/
def runs (s : State) (code : List Byte) (test : State → Bool) : Bool :=
  match step (s.placeBytes 0 code) with
  | .next t => test t
  | .fault _ | .refused _ => false

/-- V3: R132 bank from DBR; B kept. -/
theorem test_ldaAbs :
    runs (withBytes { native with p := 0x30, c := 0xAB00, dbr := 0x12 } 0x122000 [0x5A]) [0xAD, 0x00, 0x20] fun t =>
      t.c = 0xAB5A ∧ t.pc = 0x8003 ∧ t.p = 0x30 := by decide

/-- V4: R132 R74 16-bit data crosses into bank $13. -/
theorem test_ldaAbs_2 :
    runs (withBytes (withBytes { native with p := 0x10, dbr := 0x12 } 0x12FFFF [0x34]) 0x130000 [0x12])
      [0xAD, 0xFF, 0xFF] fun t =>
      t.c = 0x1234 ∧ t.pc = 0x8003 ∧ t.p = 0x10 := by decide

/-- V5: R133 index carries into next bank. -/
theorem test_ldaAbsx :
    runs (withBytes { native with p := 0x00, x := 0x0020, dbr := 0x12 } 0x130010 [0xCD, 0xAB])
      [0xBD, 0xF0, 0xFF] fun t =>
      t.c = 0xABCD ∧ t.pc = 0x8003 ∧ t.p = 0x80 := by decide

/-- V6: R134 16-bit Y, 8-bit data. -/
theorem test_ldaAbsy :
    runs (withBytes { native with p := 0x20, y := 0x0100 } 0x002100 [0x77]) [0xB9, 0x00, 0x20] fun t =>
      t.c = 0x0077 ∧ t.pc = 0x8003 ∧ t.p = 0x20 := by decide

/-- V8: R136. -/
theorem test_ldaLongx :
    runs (withBytes { native with p := 0x30, x := 0x0001 } 0x130000 [0x42]) [0xBF, 0xFF, 0xFF, 0x12] fun t =>
      t.c = 0x0042 ∧ t.pc = 0x8004 ∧ t.p = 0x30 := by decide

/-- V7: R135 DBR ignored. -/
theorem test_ldaLong :
    runs (withBytes { native with p := 0x30, dbr := 0x7E } 0x123456 [0x99]) [0xAF, 0x56, 0x34, 0x12] fun t =>
      t.c = 0x0099 ∧ t.pc = 0x8004 ∧ t.p = 0xB0 := by decide

/-- V9: R142 R140 direct page in bank 0; DBR ignored. -/
theorem test_ldaDp :
    runs (withBytes { native with p := 0x30, d := 0x1234, dbr := 0x55 } 0x001244 [0x66]) [0xA5, 0x10] fun t =>
      t.c = 0x0066 ∧ t.pc = 0x8002 ∧ t.p = 0x30 := by decide

/-- V11: R143 R140 E=1, DL=0: wraps in page. -/
theorem test_ldaDpx :
    runs (withBytes (withBytes { native with p := 0x30, x := 0x0020, e := true } 0x000010 [0xAA]) 0x000110 [0xBB])
      [0xB5, 0xF0] fun t =>
      t.c = 0x00AA ∧ t.pc = 0x8002 ∧ t.p = 0xB0 := by decide

/-- V12: R143 native: no page wrap. -/
theorem test_ldaDpx_2 :
    runs (withBytes (withBytes { native with p := 0x30, x := 0x0020 } 0x000010 [0xAA]) 0x000110 [0xBB])
      [0xB5, 0xF0] fun t =>
      t.c = 0x00BB ∧ t.pc = 0x8002 ∧ t.p = 0xB0 := by decide

/-- V13: R145 R141 opcode B2 is (d), conflict C4. -/
theorem test_ldaIdp :
    runs (withBytes (withBytes { native with p := 0x30, dbr := 0x12 } 0x000010 [0x00, 0x30]) 0x123000 [0x5C])
      [0xB2, 0x10] fun t =>
      t.c = 0x005C ∧ t.pc = 0x8002 ∧ t.p = 0x30 := by decide

/-- V15: R146 R141 E=1: pointer high byte from $0000. -/
theorem test_ldaIdpx :
    runs (withBytes (withBytes (withBytes (withBytes (withBytes { native with p := 0x30, e := true } 0x000000
      [0x40]) 0x0000FF [0x00]) 0x000100 [0x50]) 0x004000 [0xE1]) 0x005000 [0xE2]) [0xA1, 0xFF] fun t =>
      t.c = 0x00E1 ∧ t.pc = 0x8002 ∧ t.p = 0xB0 := by decide

/-- V16: R147 Y added across bank. -/
theorem test_ldaIdpy :
    runs (withBytes (withBytes { native with p := 0x30, y := 0x0010, dbr := 0x12 } 0x000010 [0xF8, 0xFF]) 0x130008
      [0x5E]) [0xB1, 0x10] fun t =>
      t.c = 0x005E ∧ t.pc = 0x8002 ∧ t.p = 0x30 := by decide

/-- V17: R148. -/
theorem test_ldaIldp :
    runs (withBytes (withBytes { native with p := 0x30 } 0x000010 [0x00, 0x30, 0x7F]) 0x7F3000 [0x5F])
      [0xA7, 0x10] fun t =>
      t.c = 0x005F ∧ t.pc = 0x8002 ∧ t.p = 0x30 := by decide

/-- V18: R149. -/
theorem test_ldaIldpy :
    runs (withBytes (withBytes { native with p := 0x30, y := 0x0002 } 0x000010 [0xFF, 0xFF, 0x7F]) 0x800001 [0x60])
      [0xB7, 0x10] fun t =>
      t.c = 0x0060 ∧ t.pc = 0x8002 ∧ t.p = 0x30 := by decide

/-- V19: R150 1,S is the last byte pushed. -/
theorem test_ldaSr :
    runs (withBytes { native with p := 0x30, sp := 0x01F0 } 0x0001F1 [0x61]) [0xA3, 0x01] fun t =>
      t.c = 0x0061 ∧ t.pc = 0x8002 ∧ t.p = 0x30 := by decide

/-- V20: R151. -/
theorem test_ldaIsry :
    runs (withBytes (withBytes { native with p := 0x30, y := 0x0001, sp := 0x01F0, dbr := 0x12 } 0x0001F1
      [0x00, 0x30]) 0x123001 [0x62]) [0xB3, 0x01] fun t =>
      t.c = 0x0062 ∧ t.pc = 0x8002 ∧ t.p = 0x30 := by decide

/-- V30: R171 x=0: 16-bit immediate. -/
theorem test_ldxImm :
    runs { native with p := 0x00 } [0xA2, 0x34, 0x12] fun t =>
      t.x = 0x1234 ∧ t.pc = 0x8003 ∧ t.p = 0x00 := by decide

/-- V32: R172 N set. -/
theorem test_ldyImm :
    runs { native with p := 0x30 } [0xA0, 0xFF] fun t =>
      t.y = 0x00FF ∧ t.pc = 0x8002 ∧ t.p = 0xB0 := by decide

/-- V33: R171 R144 LDX d,y. -/
theorem test_ldxDpy :
    runs (withBytes { native with p := 0x30, y := 0x0005 } 0x000015 [0x7A]) [0xB6, 0x10] fun t =>
      t.x = 0x007A ∧ t.pc = 0x8002 ∧ t.p = 0x30 := by decide

/-- V36: R173 R74. -/
theorem test_staAbs :
    runs { native with p := 0x00, c := 0xBEEF, dbr := 0x01 } [0x8D, 0xFF, 0xFF] fun t =>
      t.pc = 0x8003 ∧ t.p = 0x00 ∧ t.readByte 0x01FFFF = 0xEF ∧ t.readByte 0x020000 = 0xBE := by decide

/-- V38: R174 width from x, not m. -/
theorem test_stxDp :
    runs { native with p := 0x20, x := 0xABCD } [0x86, 0x10] fun t =>
      t.pc = 0x8002 ∧ t.p = 0x20 ∧ t.readByte 0x000010 = 0xCD ∧ t.readByte 0x000011 = 0xAB := by decide

/-- V39: R175. -/
theorem test_styAbs :
    runs { native with p := 0x30, y := 0x007F } [0x8C, 0x00, 0x20] fun t =>
      t.pc = 0x8003 ∧ t.p = 0x30 ∧ t.readByte 0x002000 = 0x7F := by decide

/-- V41: R176 STZ 8-bit; flags untouched. -/
theorem test_stzDp :
    runs (withBytes { native with p := 0x20 } 0x000010 [0xFF, 0xFF]) [0x64, 0x10] fun t =>
      t.pc = 0x8002 ∧ t.p = 0x20 ∧ t.readByte 0x000010 = 0x00 := by decide

/-- V42: R173 R136. -/
theorem test_staLongx :
    runs { native with p := 0x20, c := 0x0042, x := 0x0010 } [0x9F, 0x00, 0x00, 0x7F] fun t =>
      t.pc = 0x8004 ∧ t.p = 0x20 ∧ t.readByte 0x7F0010 = 0x42 := by decide

/-- V52: R190 8-bit: B untouched, carry not propagated into B. -/
theorem test_adcImm :
    runs { native with p := 0x31, c := 0x12FF } [0x69, 0x00] fun t =>
      t.c = 0x1200 ∧ t.pc = 0x8002 ∧ t.p = 0x33 := by decide

/-- V53: R190 16-bit overflow. -/
theorem test_adcImm_2 :
    runs { native with p := 0x00, c := 0x7FFF } [0x69, 0x01, 0x00] fun t =>
      t.c = 0x8000 ∧ t.pc = 0x8003 ∧ t.p = 0xC0 := by decide

/-- V59: R191 16-bit: $7FFF-$8000. -/
theorem test_sbcImm :
    runs { native with p := 0x01, c := 0x7FFF } [0xE9, 0x00, 0x80] fun t =>
      t.c = 0xFFFF ∧ t.pc = 0x8003 ∧ t.p = 0xC0 := by decide

/-- V61: R190 R192 decimal carry. -/
theorem test_adcImm_3 :
    runs { native with p := 0x38, c := 0x0099 } [0x69, 0x01] fun t =>
      t.c = 0x0000 ∧ t.pc = 0x8002 ∧ t.p = 0x3B := by decide

/-- V63: R191 R192 decimal subtract. -/
theorem test_sbcImm_2 :
    runs { native with p := 0x39, c := 0x0042 } [0xE9, 0x27] fun t =>
      t.c = 0x0015 ∧ t.pc = 0x8002 ∧ t.p = 0x39 := by decide

/-- V67: R193 V not changed. -/
theorem test_cmpImm :
    runs { native with p := 0x70, c := 0x0080 } [0xC9, 0x01] fun t =>
      t.pc = 0x8002 ∧ t.p = 0x71 := by decide

/-- V69: R194. -/
theorem test_cpxImm :
    runs { native with p := 0x30, x := 0x0020 } [0xE0, 0x10] fun t =>
      t.pc = 0x8002 ∧ t.p = 0x31 := by decide

/-- V70: R195. -/
theorem test_cpyAbs :
    runs (withBytes { native with p := 0x00, y := 0x1234 } 0x002000 [0x34, 0x12]) [0xCC, 0x00, 0x20] fun t =>
      t.pc = 0x8003 ∧ t.p = 0x03 := by decide

/-- V71: R196 INC A 8-bit wraps; C flag untouched; B kept. -/
theorem test_incAcc :
    runs { native with p := 0x30, c := 0x12FF } [0x1A] fun t =>
      t.c = 0x1200 ∧ t.pc = 0x8001 ∧ t.p = 0x32 := by decide

/-- V72: R196 16-bit memory wraps to 0. -/
theorem test_incAbs :
    runs (withBytes { native with p := 0x00 } 0x002000 [0xFF, 0xFF]) [0xEE, 0x00, 0x20] fun t =>
      t.pc = 0x8003 ∧ t.p = 0x02 ∧ t.readByte 0x002000 = 0x00 ∧ t.readByte 0x002001 = 0x00 := by decide

/-- V74: R197. -/
theorem test_decDp :
    runs (withBytes { native with p := 0x30 } 0x000010 [0x01]) [0xC6, 0x10] fun t =>
      t.pc = 0x8002 ∧ t.p = 0x32 ∧ t.readByte 0x000010 = 0x00 := by decide

/-- V75: R198 8-bit X wraps. -/
theorem test_inx :
    runs { native with p := 0x30, x := 0x00FF } [0xE8] fun t =>
      t.x = 0x0000 ∧ t.pc = 0x8001 ∧ t.p = 0x32 := by decide

/-- V77: R199. -/
theorem test_iny :
    runs { native with p := 0x00, y := 0xFFFF } [0xC8] fun t =>
      t.y = 0x0000 ∧ t.pc = 0x8001 ∧ t.p = 0x02 := by decide

/-- V78: R200. -/
theorem test_dex :
    runs { native with p := 0x30 } [0xCA] fun t =>
      t.x = 0x00FF ∧ t.pc = 0x8001 ∧ t.p = 0xB0 := by decide

/-- V79: R201. -/
theorem test_dey :
    runs { native with p := 0x00 } [0x88] fun t =>
      t.y = 0xFFFF ∧ t.pc = 0x8001 ∧ t.p = 0x80 := by decide

/-- V90: R220 Z; B kept. -/
theorem test_andImm :
    runs { native with p := 0x30, c := 0x12F0 } [0x29, 0x0F] fun t =>
      t.c = 0x1200 ∧ t.pc = 0x8002 ∧ t.p = 0x32 := by decide

/-- V92: R221. -/
theorem test_oraImm :
    runs { native with p := 0x30, c := 0x0001 } [0x09, 0x80] fun t =>
      t.c = 0x0081 ∧ t.pc = 0x8002 ∧ t.p = 0xB0 := by decide

/-- V93: R222. -/
theorem test_eorImm :
    runs { native with p := 0x30, c := 0x00FF } [0x49, 0xFF] fun t =>
      t.c = 0x0000 ∧ t.pc = 0x8002 ∧ t.p = 0x32 := by decide

/-- V95: R223 16-bit: N,V from bits 15,14. -/
theorem test_bitAbs :
    runs (withBytes { native with p := 0x00, c := 0x4000 } 0x002000 [0x00, 0x40]) [0x2C, 0x00, 0x20] fun t =>
      t.pc = 0x8003 ∧ t.p = 0x40 := by decide

/-- V97: R223 immediate: N,V kept, Z cleared. -/
theorem test_bitImm :
    runs { native with p := 0xF2, c := 0x0001 } [0x89, 0x01] fun t =>
      t.pc = 0x8002 ∧ t.p = 0xF0 := by decide

/-- V98: R224 TSB: Z from A AND old memory. -/
theorem test_tsbDp :
    runs (withBytes { native with p := 0x30, c := 0x000F } 0x000010 [0xF0]) [0x04, 0x10] fun t =>
      t.pc = 0x8002 ∧ t.p = 0x32 ∧ t.readByte 0x000010 = 0xFF := by decide

/-- V100: R225. -/
theorem test_trbDp :
    runs (withBytes { native with p := 0x30, c := 0x000F } 0x000010 [0xFF]) [0x14, 0x10] fun t =>
      t.pc = 0x8002 ∧ t.p = 0x30 ∧ t.readByte 0x000010 = 0xF0 := by decide

/-- V110: R240. -/
theorem test_aslAcc :
    runs { native with p := 0x30, c := 0x1280 } [0x0A] fun t =>
      t.c = 0x1200 ∧ t.pc = 0x8001 ∧ t.p = 0x33 := by decide

/-- V114: R241. -/
theorem test_lsrAbs :
    runs (withBytes { native with p := 0x00 } 0x002000 [0x01, 0x80]) [0x4E, 0x00, 0x20] fun t =>
      t.pc = 0x8003 ∧ t.p = 0x01 ∧ t.readByte 0x002000 = 0x00 ∧ t.readByte 0x002001 = 0x40 := by decide

/-- V115: R242. -/
theorem test_rolAcc :
    runs { native with p := 0x31, c := 0x0080 } [0x2A] fun t =>
      t.c = 0x0001 ∧ t.pc = 0x8001 ∧ t.p = 0x31 := by decide

/-- V119: R243 R133. -/
theorem test_rorAbsx :
    runs (withBytes { native with p := 0x31, x := 0x0001 } 0x002001 [0x00]) [0x7E, 0x00, 0x20] fun t =>
      t.pc = 0x8003 ∧ t.p = 0xB0 ∧ t.readByte 0x002001 = 0x80 := by decide

/-- V130: R253 taken forward. -/
theorem test_beq :
    runs { native with p := 0x32 } [0xF0, 0x10] fun t =>
      t.pc = 0x8012 ∧ t.p = 0x32 := by decide

/-- V132: R254 branch to itself. -/
theorem test_bne :
    runs { native with p := 0x30 } [0xD0, 0xFE] fun t =>
      t.pc = 0x8000 ∧ t.p = 0x30 := by decide

/-- V133: R251 most negative offset. -/
theorem test_bcc :
    runs { native with p := 0x30 } [0x90, 0x80] fun t =>
      t.pc = 0x7F82 ∧ t.p = 0x30 := by decide

/-- V134: R252 most positive offset. -/
theorem test_bcs :
    runs { native with p := 0x31 } [0xB0, 0x7F] fun t =>
      t.pc = 0x8081 ∧ t.p = 0x31 := by decide

/-- V135: R255. -/
theorem test_bmi :
    runs { native with p := 0xB0 } [0x30, 0x05] fun t =>
      t.pc = 0x8007 ∧ t.p = 0xB0 := by decide

/-- V136: R256 not taken. -/
theorem test_bpl :
    runs { native with p := 0xB0 } [0x10, 0x05] fun t =>
      t.pc = 0x8002 ∧ t.p = 0xB0 := by decide

/-- V137: R257. -/
theorem test_bvc :
    runs { native with p := 0x30 } [0x50, 0x05] fun t =>
      t.pc = 0x8007 ∧ t.p = 0x30 := by decide

/-- V138: R258. -/
theorem test_bvs :
    runs { native with p := 0x70 } [0x70, 0x05] fun t =>
      t.pc = 0x8007 ∧ t.p = 0x70 := by decide

/-- V139: R259 R30 target wraps within the bank. -/
theorem test_bra :
    runs { native with p := 0x30, pbr := 0x05, pc := 0xFFF8 } [0x80, 0x10] fun t =>
      t.pc = 0x000A ∧ t.p = 0x30 := by decide

/-- V140: R260 BRL: $8003+$8000. -/
theorem test_brl :
    runs { native with p := 0x30 } [0x82, 0x00, 0x80] fun t =>
      t.pc = 0x0003 ∧ t.p = 0x30 := by decide

/-- V142: R262 PBR unchanged. -/
theorem test_jmpAbs :
    runs { native with p := 0x30, pbr := 0x05 } [0x4C, 0x34, 0x12] fun t =>
      t.pc = 0x1234 ∧ t.p = 0x30 := by decide

/-- V143: R263 R152 pointer in bank 0; no 6502 page-wrap bug. -/
theorem test_jmpInd :
    runs (withBytes (withBytes { native with p := 0x30, dbr := 0x07, pbr := 0x05 } 0x0020FF [0x78]) 0x002100 [0x56])
      [0x6C, 0xFF, 0x20] fun t =>
      t.pc = 0x5678 ∧ t.p = 0x30 := by decide

/-- V144: R264 R153 pointer in program bank. -/
theorem test_jmpIndx :
    runs (withBytes { native with p := 0x30, x := 0x0002, pbr := 0x05 } 0x059002 [0xCD, 0xAB])
      [0x7C, 0x00, 0x90] fun t =>
      t.pc = 0xABCD ∧ t.p = 0x30 := by decide

/-- V145: R266. -/
theorem test_jmlLong :
    runs { native with p := 0x30 } [0x5C, 0x56, 0x34, 0x12] fun t =>
      t.pbr = 0x12 ∧ t.pc = 0x3456 ∧ t.p = 0x30 := by decide

/-- V146: R267 R154. -/
theorem test_jmlIndl :
    runs (withBytes { native with p := 0x30 } 0x002000 [0x56, 0x34, 0x12]) [0xDC, 0x00, 0x20] fun t =>
      t.pbr = 0x12 ∧ t.pc = 0x3456 ∧ t.p = 0x30 := by decide

/-- V160: R285 pushes address of last byte of JSR. -/
theorem test_jsrAbs :
    runs { native with p := 0x30, pbr := 0x05 } [0x20, 0x34, 0x12] fun t =>
      t.sp = 0x01FD ∧ t.pc = 0x1234 ∧ t.p = 0x30 ∧ t.readByte 0x0001FF = 0x80 ∧ t.readByte 0x0001FE = 0x02 := by decide

/-- V162: R287. -/
theorem test_jsl :
    runs { native with p := 0x30, pbr := 0x05 } [0x22, 0x56, 0x34, 0x12] fun t =>
      t.sp = 0x01FC ∧ t.pbr = 0x12 ∧ t.pc = 0x3456 ∧ t.p = 0x30 ∧ t.readByte 0x0001FF = 0x05 ∧
      t.readByte 0x0001FE = 0x80 ∧ t.readByte 0x0001FD = 0x03 := by decide

/-- V163: R289. -/
theorem test_rtl :
    runs (withBytes { native with p := 0x30, sp := 0x01FC } 0x0001FD [0x03, 0x80, 0x05]) [0x6B] fun t =>
      t.sp = 0x01FF ∧ t.pbr = 0x05 ∧ t.pc = 0x8004 ∧ t.p = 0x30 := by decide

/-- V164: R286. -/
theorem test_jsrIndx :
    runs (withBytes { native with p := 0x30, x := 0x0002, pbr := 0x05 } 0x059002 [0xCD, 0xAB])
      [0xFC, 0x00, 0x90] fun t =>
      t.sp = 0x01FD ∧ t.pc = 0xABCD ∧ t.p = 0x30 ∧ t.readByte 0x0001FF = 0x80 ∧ t.readByte 0x0001FE = 0x02 := by decide

/-- V165: R288 $FFFF+1 wraps to $0000, same bank. -/
theorem test_rts :
    runs (withBytes { native with p := 0x30, sp := 0x01FD, pbr := 0x05 } 0x0001FE [0xFF, 0xFF]) [0x60] fun t =>
      t.sp = 0x01FF ∧ t.pc = 0x0000 ∧ t.p = 0x30 := by decide

/-- V166: R292 native: 4 bytes. -/
theorem test_rti :
    runs (withBytes { native with p := 0x30, sp := 0x01FB } 0x0001FC [0xC3, 0x00, 0x90, 0x7E]) [0x40] fun t =>
      t.sp = 0x01FF ∧ t.pbr = 0x7E ∧ t.pc = 0x9000 ∧ t.p = 0xC3 := by decide

/-- V167: R292 emulation: 3 bytes; bits 5,4 stay 1. -/
theorem test_rti_2 :
    runs (withBytes { native with p := 0x30, sp := 0x01FC, e := true } 0x0001FD [0xC3, 0x00, 0x90]) [0x40] fun t =>
      t.sp = 0x01FF ∧ t.pc = 0x9000 ∧ t.p = 0xF3 := by decide

/-- V169: R298 16-bit push: high then low. -/
theorem test_pha :
    runs { native with p := 0x00, c := 0x1234 } [0x48] fun t =>
      t.sp = 0x01FD ∧ t.pc = 0x8001 ∧ t.p = 0x00 ∧ t.readByte 0x0001FF = 0x12 ∧ t.readByte 0x0001FE = 0x34 := by decide

/-- V171: R298 R280 emulation: S wraps $0100 -> $01FF. -/
theorem test_pha_2 :
    runs { native with p := 0x30, c := 0x0042, sp := 0x0100, e := true } [0x48] fun t =>
      t.sp = 0x01FF ∧ t.pc = 0x8001 ∧ t.p = 0x30 ∧ t.readByte 0x000100 = 0x42 := by decide

/-- V172: R306 R281 emulation: pull wraps to $0100. -/
theorem test_pla :
    runs (withBytes { native with p := 0x30, e := true } 0x000100 [0x80]) [0x68] fun t =>
      t.c = 0x0080 ∧ t.sp = 0x0100 ∧ t.pc = 0x8001 ∧ t.p = 0xB0 := by decide

/-- V174: R299. -/
theorem test_php :
    runs { native with p := 0xC3 } [0x08] fun t =>
      t.sp = 0x01FE ∧ t.pc = 0x8001 ∧ t.p = 0xC3 ∧ t.readByte 0x0001FF = 0xC3 := by decide

/-- V175: R299 R41 emulation: pushed bits 5,4 = 1. -/
theorem test_php_2 :
    runs { native with p := 0x30, e := true } [0x08] fun t =>
      t.sp = 0x01FE ∧ t.pc = 0x8001 ∧ t.p = 0x30 ∧ t.readByte 0x0001FF = 0x30 := by decide

/-- V176: R305 PLP setting x clears XH, YH. -/
theorem test_plp :
    runs (withBytes { native with p := 0x00, x := 0x1234, y := 0x5678, sp := 0x01FE } 0x0001FF [0xFF]) [0x28] fun t =>
      t.x = 0x0034 ∧ t.y = 0x0078 ∧ t.sp = 0x01FF ∧ t.pc = 0x8001 ∧ t.p = 0xFF := by decide

/-- V178: R300. -/
theorem test_phx :
    runs { native with p := 0x20, x := 0xABCD } [0xDA] fun t =>
      t.sp = 0x01FD ∧ t.pc = 0x8001 ∧ t.p = 0x20 ∧ t.readByte 0x0001FF = 0xAB ∧ t.readByte 0x0001FE = 0xCD := by decide

/-- V179: R308. -/
theorem test_ply :
    runs (withBytes { native with p := 0x30, sp := 0x01FE } 0x0001FF [0x80]) [0x7A] fun t =>
      t.y = 0x0080 ∧ t.sp = 0x01FF ∧ t.pc = 0x8001 ∧ t.p = 0xB0 := by decide

/-- V180: R302. -/
theorem test_phb :
    runs { native with p := 0x30, dbr := 0x7E } [0x8B] fun t =>
      t.sp = 0x01FE ∧ t.pc = 0x8001 ∧ t.p = 0x30 ∧ t.readByte 0x0001FF = 0x7E := by decide

/-- V181: R309 N from the byte pulled. -/
theorem test_plb :
    runs (withBytes { native with p := 0x30, sp := 0x01FE } 0x0001FF [0x80]) [0xAB] fun t =>
      t.sp = 0x01FF ∧ t.dbr = 0x80 ∧ t.pc = 0x8001 ∧ t.p = 0xB0 := by decide

/-- V182: R303. -/
theorem test_phd :
    runs { native with p := 0x30, d := 0x1234 } [0x0B] fun t =>
      t.sp = 0x01FD ∧ t.pc = 0x8001 ∧ t.p = 0x30 ∧ t.readByte 0x0001FF = 0x12 ∧ t.readByte 0x0001FE = 0x34 := by decide

/-- V183: R310 Z from 16 bits. -/
theorem test_pld :
    runs (withBytes { native with p := 0x30, sp := 0x01FD, d := 0x1234 } 0x0001FE [0x00, 0x00]) [0x2B] fun t =>
      t.sp = 0x01FF ∧ t.d = 0x0000 ∧ t.pc = 0x8001 ∧ t.p = 0x32 := by decide

/-- V184: R304. -/
theorem test_phk :
    runs { native with p := 0x30, pbr := 0x05 } [0x4B] fun t =>
      t.sp = 0x01FE ∧ t.pc = 0x8001 ∧ t.p = 0x30 ∧ t.readByte 0x0001FF = 0x05 := by decide

/-- V185: R295. -/
theorem test_pea :
    runs { native with p := 0x30 } [0xF4, 0x34, 0x12] fun t =>
      t.sp = 0x01FD ∧ t.pc = 0x8003 ∧ t.p = 0x30 ∧ t.readByte 0x0001FF = 0x12 ∧ t.readByte 0x0001FE = 0x34 := by decide

/-- V186: R296. -/
theorem test_pei :
    runs (withBytes { native with p := 0x30 } 0x000010 [0xCD, 0xAB]) [0xD4, 0x10] fun t =>
      t.sp = 0x01FD ∧ t.pc = 0x8002 ∧ t.p = 0x30 ∧ t.readByte 0x0001FF = 0xAB ∧ t.readByte 0x0001FE = 0xCD := by decide

/-- V187: R297 pushes $8003+$0010. -/
theorem test_per :
    runs { native with p := 0x30 } [0x62, 0x10, 0x00] fun t =>
      t.sp = 0x01FD ∧ t.pc = 0x8003 ∧ t.p = 0x30 ∧ t.readByte 0x0001FF = 0x80 ∧ t.readByte 0x0001FE = 0x13 := by decide

/-- V188: R295 R282 EMU_EXT=chip: second byte leaves page 1. -/
theorem test_pea_2 :
    runs { native with p := 0x30, sp := 0x0100, e := true } [0xF4, 0x34, 0x12] fun t =>
      t.sp = 0x01FE ∧ t.pc = 0x8003 ∧ t.p = 0x30 ∧ t.readByte 0x000100 = 0x12 ∧ t.readByte 0x0000FF = 0x34 := by decide

/-- V200: R331 m=1, x=0: 16 bits of C go to X. -/
theorem test_tax :
    runs { native with p := 0x20, c := 0x1234 } [0xAA] fun t =>
      t.x = 0x1234 ∧ t.pc = 0x8001 ∧ t.p = 0x20 := by decide

/-- V202: R332. -/
theorem test_tay :
    runs { native with p := 0x00, y := 0x1111 } [0xA8] fun t =>
      t.y = 0x0000 ∧ t.pc = 0x8001 ∧ t.p = 0x02 := by decide

/-- V203: R333 m=1: only A written. -/
theorem test_txa :
    runs { native with p := 0x20, c := 0x1234, x := 0xABCD } [0x8A] fun t =>
      t.c = 0x12CD ∧ t.pc = 0x8001 ∧ t.p = 0xA0 := by decide

/-- V205: R334. -/
theorem test_tya :
    runs { native with p := 0x00, y := 0x8000 } [0x98] fun t =>
      t.c = 0x8000 ∧ t.pc = 0x8001 ∧ t.p = 0x80 := by decide

/-- V207: R335 x=1: SL only, N set. -/
theorem test_tsx :
    runs { native with p := 0x10, sp := 0x1280 } [0xBA] fun t =>
      t.x = 0x0080 ∧ t.pc = 0x8001 ∧ t.p = 0x90 := by decide

/-- V208: R336 no flags. -/
theorem test_txs :
    runs { native with p := 0x00, x := 0x1234 } [0x9A] fun t =>
      t.sp = 0x1234 ∧ t.pc = 0x8001 ∧ t.p = 0x00 := by decide

/-- V210: R336 R25 emulation: SH stays $01. -/
theorem test_txs_2 :
    runs { native with p := 0x30, x := 0x0034, e := true } [0x9A] fun t =>
      t.sp = 0x0134 ∧ t.pc = 0x8001 ∧ t.p = 0x30 := by decide

/-- V211: R337. -/
theorem test_txy :
    runs { native with p := 0x00, x := 0x8000, y := 0x1111 } [0x9B] fun t =>
      t.y = 0x8000 ∧ t.pc = 0x8001 ∧ t.p = 0x80 := by decide

/-- V212: R338. -/
theorem test_tyx :
    runs { native with p := 0x10, x := 0x0011 } [0xBB] fun t =>
      t.x = 0x0000 ∧ t.pc = 0x8001 ∧ t.p = 0x12 := by decide

/-- V213: R339 16 bits although m=1. -/
theorem test_tcd :
    runs { native with p := 0x30, c := 0x8000 } [0x5B] fun t =>
      t.d = 0x8000 ∧ t.pc = 0x8001 ∧ t.p = 0xB0 := by decide

/-- V214: R340 writes B too although m=1. -/
theorem test_tdc :
    runs { native with p := 0x30, c := 0xFFFF, d := 0x1234 } [0x7B] fun t =>
      t.c = 0x1234 ∧ t.pc = 0x8001 ∧ t.p = 0x30 := by decide

/-- V216: R341 R25 EMU_EXT=chip: SH forced to $01. -/
theorem test_tcs :
    runs { native with p := 0x30, c := 0x1FFF, e := true } [0x1B] fun t =>
      t.pc = 0x8001 ∧ t.p = 0x30 := by decide

/-- V217: R342. -/
theorem test_tsc :
    runs { native with p := 0x30, sp := 0x8000 } [0x3B] fun t =>
      t.c = 0x8000 ∧ t.pc = 0x8001 ∧ t.p = 0xB0 := by decide

/-- V219: R343 8-bit flags even with m=0: new A=$00. -/
theorem test_xba :
    runs { native with p := 0x00, c := 0x00FF } [0xEB] fun t =>
      t.c = 0xFF00 ∧ t.pc = 0x8001 ∧ t.p = 0x02 := by decide

/-- V221: R345 to emulation: m,x set, XH YH cleared, SH=$01, B kept, C gets 0. -/
theorem test_xce :
    runs { native with p := 0x01, c := 0xABCD, x := 0x1234, y := 0x5678, sp := 0x1FF0 } [0xFB] fun t =>
      t.x = 0x0034 ∧ t.y = 0x0078 ∧ t.sp = 0x01F0 ∧ t.pc = 0x8001 ∧ t.p = 0x30 ∧ t.e = true := by decide

/-- V240: R360 R410. -/
theorem test_brk :
    runs (withBytes { native with p := 0x09, sp := 0x1FFF, pbr := 0x05 } 0x00FFE6 [0x00, 0x90]) [0x00, 0xAA] fun t =>
      t.sp = 0x1FFB ∧ t.pbr = 0x00 ∧ t.pc = 0x9000 ∧ t.p = 0x05 ∧ t.readByte 0x001FFF = 0x05 ∧
      t.readByte 0x001FFE = 0x80 ∧ t.readByte 0x001FFD = 0x02 ∧ t.readByte 0x001FFC = 0x09 := by decide

/-- V241: R360 R410 pushed P has bit 4 = 1. -/
theorem test_brk_2 :
    runs (withBytes { native with p := 0x39, e := true } 0x00FFFE [0x00, 0xA0]) [0x00, 0xAA] fun t =>
      t.sp = 0x01FC ∧ t.pc = 0xA000 ∧ t.p = 0x35 ∧ t.readByte 0x0001FF = 0x80 ∧ t.readByte 0x0001FE = 0x02 ∧
      t.readByte 0x0001FD = 0x39 := by decide

/-- V242: R361 R410. -/
theorem test_cop :
    runs (withBytes { native with p := 0x00, sp := 0x1FFF, pbr := 0x05 } 0x00FFE4 [0x00, 0x91]) [0x02, 0x07] fun t =>
      t.sp = 0x1FFB ∧ t.pbr = 0x00 ∧ t.pc = 0x9100 ∧ t.p = 0x04 ∧ t.readByte 0x001FFF = 0x05 ∧
      t.readByte 0x001FFE = 0x80 ∧ t.readByte 0x001FFD = 0x02 ∧ t.readByte 0x001FFC = 0x00 := by decide

/-- V244: R365. -/
theorem test_wdm :
    runs { native with p := 0x30 } [0x42, 0xFF] fun t =>
      t.pc = 0x8002 ∧ t.p = 0x30 := by decide

/-- V245: R368. -/
theorem test_nop :
    runs { native with p := 0x30 } [0xEA] fun t =>
      t.pc = 0x8001 ∧ t.p = 0x30 := by decide

/-- V246: R366. -/
theorem test_wai :
    runs { native with p := 0x30 } [0xCB] fun t =>
      t.pc = 0x8001 ∧ t.run = .waiting ∧ t.p = 0x30 := by decide

/-- V247: R367. -/
theorem test_stp :
    runs { native with p := 0x30 } [0xDB] fun t =>
      t.pc = 0x8001 ∧ t.run = .stopped ∧ t.p = 0x30 := by decide

/-- V248: R369. -/
theorem test_sec :
    runs { native with p := 0x30 } [0x38] fun t =>
      t.pc = 0x8001 ∧ t.p = 0x31 := by decide

/-- V249: R370. -/
theorem test_clc :
    runs { native with p := 0x31 } [0x18] fun t =>
      t.pc = 0x8001 ∧ t.p = 0x30 := by decide

/-- V250: R371. -/
theorem test_sed :
    runs { native with p := 0x30 } [0xF8] fun t =>
      t.pc = 0x8001 ∧ t.p = 0x38 := by decide

/-- V251: R372. -/
theorem test_cld :
    runs { native with p := 0x38 } [0xD8] fun t =>
      t.pc = 0x8001 ∧ t.p = 0x30 := by decide

/-- V252: R373. -/
theorem test_sei :
    runs { native with p := 0x30 } [0x78] fun t =>
      t.pc = 0x8001 ∧ t.p = 0x34 := by decide

/-- V253: R374. -/
theorem test_cli :
    runs { native with p := 0x34 } [0x58] fun t =>
      t.pc = 0x8001 ∧ t.p = 0x30 := by decide

/-- V254: R375. -/
theorem test_clv :
    runs { native with p := 0x70 } [0xB8] fun t =>
      t.pc = 0x8001 ∧ t.p = 0x30 := by decide

/-- V256: R380 emulation: m, x stay 1. -/
theorem test_rep :
    runs { native with p := 0xFF, e := true } [0xC2, 0xFF] fun t =>
      t.pc = 0x8002 ∧ t.p = 0x30 := by decide

/-- V258: R381 R23. -/
theorem test_sep :
    runs { native with p := 0x00, x := 0x1234, y := 0xABCD } [0xE2, 0x10] fun t =>
      t.x = 0x0034 ∧ t.y = 0x00CD ∧ t.pc = 0x8002 ∧ t.p = 0x10 := by decide

/-- V272: R391. -/
theorem test_mvp :
    runs (withBytes { native with p := 0x00, c := 0x0001, x := 0x1001, y := 0x3001 } 0x001000 [0xAA, 0xBB])
      [0x44, 0x01, 0x00] fun t =>
      t.c = 0x0000 ∧ t.x = 0x1000 ∧ t.y = 0x3000 ∧ t.dbr = 0x01 ∧ t.pc = 0x8000 ∧ t.p = 0x00 ∧
      t.readByte 0x013001 = 0xBB := by decide

/-- V274: R390 x=1: 8-bit index wrap. -/
theorem test_mvn :
    runs (withBytes (withBytes { native with p := 0x10, c := 0x0001, x := 0x00FF, y := 0x0010 } 0x000000
      [0x6B]) 0x0000FF [0x5A]) [0x54, 0x00, 0x00] fun t =>
      t.c = 0x0000 ∧ t.x = 0x0000 ∧ t.y = 0x0011 ∧ t.pc = 0x8000 ∧ t.p = 0x10 ∧ t.readByte 0x000010 = 0x5A := by decide

/-! ## Events between steps -/

/-- V245's state with a NOP at PC, to which the events below happen. -/
def idleNop : State := withBytes { native with p := 0x31, pbr := 0x05, sp := 0x1FFF } 0x058000 [0xEA]

/-- What the environment does before one check. -/
def now (i : EnvInput) (s : State) : State := { s with schedule := [i] }

def quiet : EnvInput := { irq := false, nmiEdge := false, reset := false, abort := false }

/-- One step answers a state that passes the test. -/
def goes (s : State) (test : State → Bool) : Bool :=
  match step s with
  | .next t => test t
  | .fault _ | .refused _ => false

/-- R404, R410: an IRQ with I = 0 enters through `$FFEE` with the interrupted PC on the stack. -/
theorem test_irq_native :
    goes (now { quiet with irq := true } (withBytes idleNop 0x00FFEE [0x00, 0x90])) fun t =>
      t.pc = 0x9000 ∧ t.pbr = 0 ∧ t.p = 0x35 ∧ t.sp = 0x1FFB ∧ t.readByte 0x001FFF = 0x05
      ∧ t.readByte 0x001FFE = 0x80 ∧ t.readByte 0x001FFD = 0x00 ∧ t.readByte 0x001FFC = 0x31 := by decide

/-- R402: with I = 1 the IRQ is not taken and the NOP runs. -/
theorem test_irq_masked :
    goes (now { quiet with irq := true } { idleNop with p := 0x34 }) fun t => t.pc = 0x8001 ∧ t.irqLine = true := by
  decide

/-- R404: NMI goes first, IRQ stays asserted. R41: bit 4 of the pushed P is clear in emulation mode. -/
theorem test_nmi_emulation :
    goes (now { quiet with irq := true, nmiEdge := true }
      (withBytes { native with e := true, p := 0x30 } 0x00FFFA [0x00, 0xA0])) fun t =>
      t.pc = 0xA000 ∧ t.nmiPending = false ∧ t.irqLine = true ∧ t.sp = 0x01FC ∧ t.readByte 0x0001FD = 0x20 := by
  decide

/-- R450: reset loads PC from `$00FFFC` and forces emulation mode. -/
theorem test_reset_step :
    goes (now { quiet with reset := true } (withBytes idleNop 0x00FFFC [0x00, 0x80])) fun t =>
      t.pc = 0x8000 ∧ t.e = true ∧ t.pbr = 0 ∧ t.d = 0 ∧ t.mem = (withBytes idleNop 0x00FFFC [0x00, 0x80]).mem := by
  decide

/-- R366, R430: a masked IRQ ends the wait without an entry. -/
theorem test_wai_masked_irq :
    goes (now { quiet with irq := true } { idleNop with run := .waiting, p := 0x34 }) fun t =>
      t.run = .running ∧ t.pc = 0x8000 := by decide

/-- R367: a stopped machine ignores an NMI. -/
theorem test_stopped_ignores_nmi :
    goes (now { quiet with nmiEdge := true } { idleNop with run := .stopped }) fun t =>
      t.run = .stopped ∧ t.pc = 0x8000 ∧ t.nmiPending = true := by decide

/-- R420: an aborted instruction does nothing; its own address is on the stack. -/
theorem test_abort :
    goes (now { quiet with abort := true } { withBytes idleNop 0x00FFE8 [0x00, 0xB0] with
      platform := { Platform.default with hasAbort := true } }) fun t =>
      t.pc = 0xB000 ∧ t.readByte 0x001FFE = 0x80 ∧ t.readByte 0x001FFD = 0x00 ∧ t.abortReq = false := by decide

/-- V189: `EMU_EXT = refuse` refuses PEA in emulation mode. -/
theorem test_emuExt_refuses_pea :
    step (State.placeBytes { native with e := true, p := 0x30, platform := { Platform.default with emuExt := .refuse } } 0
      [0xF4, 0x34, 0x12]) = .refused .emuExt := rfl

/-- R48: the values the spec gives for reset. -/
theorem test_reset_values :
    State.reset.e = true ∧ State.reset.p &&& 0x3C = 0x34 ∧ highByte State.reset.sp = 0x01 ∧ State.reset.d = 0 := by decide

/-- The first step after a placed instruction runs it. -/
theorem test_withFetchWord_runs : goes (State.reset.withFetchWord 16 0x80A9) fun t => t.c = 0x80 ∧ t.pc = 2 := by decide

/-! ## Witnesses: for every statement with hypotheses, values that meet them all -/

/-- DecodeInvertsEncode, at the largest 8-bit and 16-bit immediate. -/
theorem witness_decode_inverts_encode : Instr.wf true true (.ldaImm 0xFF) = true ∧ Instr.wf false true (.ldaImm 0xFFFF) = true := by
  decide

/-- EncodeInvertsDecode. -/
theorem witness_encode_inverts_decode : decode false true [0xA9, 0x00, 0x80, 0xEA] = .ok (.ldaImm 0x8000, [0xEA]) := by decide

/-- EveryOpcodeIsAnInstruction, second clause, at no byte and at three. -/
theorem witness_every_opcode :
    decode true true [] = .error .truncated ∧ decode true true [0xAF, 0x56, 0x34] = .error .truncated := by decide

/-- StepRunsTheDecodedInstruction, at an instruction that wraps around the end of the bank. -/
theorem witness_step_runs :
    let s := withBytes (withBytes { native with pc := 0xFFFE } 0x00FFFE [0xAD, 0x34]) 0x000000 [0x12]
    s.pollInputs.check = .execute ∧ s.pollInputs.emuRefusesState = false
    ∧ s.pollInputs.emuRefusesInstr (.ldaAbs 0x1234) = false
    ∧ decode (s.flag .m) (s.flag .x)
      ([0, 1, 2, 3].map fun k => s.readByte (joinAddr s.pbr (s.pc + BitVec.ofNat 16 k)))
      = .ok (.ldaAbs 0x1234, [0x00]) := by decide

/-- StepNeverStopsOnTheChip. -/
theorem witness_chip : State.reset.platform.emuExt = .chip := by decide

/-- StepKeepsStateWellFormed and StackPageForcedAtEveryStepEnd: PHA with S at the bottom of the page. -/
theorem witness_step_keeps :
    let s := State.placeBytes { native with e := true, p := 0x30, sp := 0x0100, c := 0x42 } 0 [0x48]
    s.wf = true ∧ (∃ t, step s = .next t) ∧ goes s (fun t => t.e) = true := by
  exact ⟨by decide, ⟨_, rfl⟩, by decide⟩

/-- IndirectAddresses: the excluded case starts where the pointer's low byte is at an address that ends in `$FF`. -/
theorem witness_pointer_closed_and_open :
    let s := { native with e := true, p := 0x30, d := 0x0001 }
    ¬ s.pointerOpen (0xFD + s.xNat) ∧ s.pointerOpen (0xFE + s.xNat) ∧ ¬ s.pointerOpen (0xFF + s.xNat)
    ∧ ¬ State.pointerOpen native 0xFF := by
  simp only [State.pointerOpen]; decide

/-- `OnOperand` and `OnMemory`: an instruction of each mnemonic with an operand in memory. -/
theorem witness_memory_forms :
    ([(.ldaAbs 5, .lda), (.ldxAbs 5, .ldx), (.ldyAbs 5, .ldy), (.staAbs 5, .sta), (.stxAbs 5, .stx), (.styAbs 5, .sty),
      (.stzAbs 5, .stz), (.adcAbs 5, .adc), (.sbcAbs 5, .sbc), (.cmpAbs 5, .cmp), (.cpxAbs 5, .cpx), (.cpyAbs 5, .cpy),
      (.incAbs 5, .inc), (.decAbs 5, .dec), (.andAbs 5, .and), (.oraAbs 5, .ora), (.eorAbs 5, .eor), (.bitAbs 5, .bit),
      (.tsbAbs 5, .tsb), (.trbAbs 5, .trb), (.aslAbs 5, .asl), (.lsrAbs 5, .lsr), (.rolAbs 5, .rol), (.rorAbs 5, .ror)]
      : List (Instr × Mnemonic)).all (fun r => decide (r.1.mnemonic = r.2 ∧ r.1.operand = .data (.abs 5))) = true := by
  decide +kernel

/-- `OnOperand`: an instruction of each mnemonic with an immediate operand. -/
theorem witness_immediate_forms :
    ([(.ldaImm 5, .lda), (.adcImm 5, .adc), (.sbcImm 5, .sbc), (.cmpImm 5, .cmp), (.andImm 5, .and), (.oraImm 5, .ora),
      (.eorImm 5, .eor), (.ldxImm 5, .ldx), (.ldyImm 5, .ldy), (.cpxImm 5, .cpx), (.cpyImm 5, .cpy)]
      : List (Instr × Mnemonic)).all (fun r => decide (r.1.mnemonic = r.2 ∧ (r.1.operand = .immM 5 ∨ r.1.operand = .immX 5)))
      = true := by decide +kernel

/-- AdcAddsWithCarry and SbcSubtractsWithBorrow: both modes of arithmetic. -/
theorem witness_arithmetic_modes :
    State.flag { native with p := 0x30 } .d = false ∧ State.flag { native with p := 0x38 } .d = true := by decide

/-- DecimalArithmeticObeysTheLaw, at the largest operands of both widths. -/
theorem witness_valid_bcd :
    validBcd .byte 0x99 = true ∧ validBcd .word 0x9999 = true ∧ validBcd .byte 0x0A = false := by decide

/-- PushesStoreARegister, last clause. -/
theorem witness_push_emulation : State.reset.wf = true ∧ State.reset.e = true := by decide

/-- BlockMoveCopiesTheWholeBlock: a move up of two bytes across the end of the source bank's offsets, and a move
down of one byte. -/
theorem witness_block_up :
    let s := { native with c := 1, x := 0xFFFF, y := 0x2000 }
    (∀ j ≤ s.c.toNat, kindAt s.platform.memMap (blockAddr 0x7F s.wX s.idxY 1 j).toNat = .ram)
    ∧ (∀ j ≤ s.c.toNat, readsStored (kindAt s.platform.memMap (blockAddr 0x7E s.wX s.idxX 1 j).toNat) = true)
    ∧ (∀ j ≤ s.c.toNat, ∀ k ≤ s.c.toNat, blockAddr 0x7F s.wX s.idxY 1 j ≠ blockAddr 0x7E s.wX s.idxX 1 k) := by decide

theorem witness_block_down :
    let s := { native with c := 0, x := 0, y := 0x2000 }
    (∀ j ≤ s.c.toNat, kindAt s.platform.memMap (blockAddr 0x7F s.wX s.idxY (-1) j).toNat = .ram)
    ∧ (∀ j ≤ s.c.toNat, readsStored (kindAt s.platform.memMap (blockAddr 0x7F s.wX s.idxX (-1) j).toNat) = true)
    ∧ (∀ j ≤ s.c.toNat, ∀ k ≤ s.c.toNat, blockAddr 0x7F s.wX s.idxY (-1) j ≠ blockAddr 0x7F s.wX s.idxX (-1) k) := by
  decide

/-- The statements about every instruction that answers a next state. -/
theorem witness_exec_next : exec .nop native = .next native := rfl

/-- MemoryChangesOnlyWhereStored: the addresses on either side of a 16-bit store are not stored to. -/
theorem witness_not_stored :
    (∃ t, exec (.staAbs 0x2000) native = .next t) ∧ (0x001FFF : Addr) ∉ storedAddrs (.staAbs 0x2000) native
    ∧ (0x002002 : Addr) ∉ storedAddrs (.staAbs 0x2000) native ∧ (0x002001 : Addr) ∈ storedAddrs (.staAbs 0x2000) native :=
  ⟨⟨_, rfl⟩, by decide, by decide, by decide⟩

/-- InstructionsLeaveTheEnvironmentAlone, second clause: a step that answers. -/
theorem witness_step_next : ∃ t, step (now quiet idleNop) = .next t := ⟨_, rfl⟩

/-- OnlyTransfersMoveThePc: an instruction of each clause. -/
theorem witness_not_a_transfer :
    Instr.mnemonic .nop ∉ [.bcc, .bcs, .beq, .bne, .bmi, .bpl, .bvc, .bvs, .bra, .brl, .jmp, .jml, .jsr, .jsl, .rts,
      .rtl, .rti, .brk, .cop, .mvn, .mvp]
    ∧ Instr.mnemonic .rts ∉ [.jml, .jsl, .rtl, .rti, .brk, .cop] := by decide

/-- ResetStepReinitialises. -/
theorem witness_reset :
    let s := now { quiet with reset := true } idleNop
    s.pollInputs.resetReq = true ∧ s.pollInputs.emuRefusesState = false := by decide

/-- HardwareInterruptsAreTaken: NMI and IRQ, from running and from waiting. -/
theorem witness_interrupts :
    let n := now { quiet with nmiEdge := true } idleNop
    let q := now { quiet with irq := true } { idleNop with run := .waiting }
    (n.pollInputs.resetReq = false ∧ n.run ≠ .stopped ∧ n.pollInputs.emuRefusesState = false
      ∧ n.pollInputs.nmiPending = true)
    ∧ q.pollInputs.resetReq = false ∧ q.run ≠ .stopped ∧ q.pollInputs.emuRefusesState = false
      ∧ q.pollInputs.nmiPending = false ∧ q.pollInputs.irqLine = true ∧ q.flag .i = false := by decide

/-- StoppedAndWaitingMachines: stopped, waiting with nothing, waiting with a masked IRQ. -/
theorem witness_halted :
    let s := now { quiet with nmiEdge := true } { State.reset with run := .stopped }
    let w := now quiet { State.reset with run := .waiting }
    let i := now { quiet with irq := true } { State.reset with run := .waiting }
    (s.modeOk = true ∧ s.pollInputs.resetReq = false ∧ s.pollInputs.emuRefusesState = false ∧ s.run = .stopped)
    ∧ (w.modeOk = true ∧ w.pollInputs.resetReq = false ∧ w.pollInputs.emuRefusesState = false ∧ w.run = .waiting
      ∧ w.pollInputs.nmiPending = false ∧ w.pollInputs.irqLine = false)
    ∧ i.modeOk = true ∧ i.pollInputs.resetReq = false ∧ i.pollInputs.emuRefusesState = false ∧ i.run = .waiting
      ∧ i.pollInputs.nmiPending = false ∧ i.pollInputs.irqLine = true ∧ i.flag .i = true := by decide

/-- AbortSuppressesTheInstruction, with a masked IRQ at the same check. -/
theorem witness_abort :
    let s := now { quiet with abort := true, irq := true }
      { idleNop with p := 0x34, platform := { Platform.default with hasAbort := true } }
    s.pollInputs.platform.hasAbort = true ∧ s.pollInputs.abortReq = true ∧ s.run = .running
    ∧ s.pollInputs.resetReq = false ∧ s.pollInputs.nmiPending = false
    ∧ (s.pollInputs.irqLine = true → s.flag .i = true) ∧ s.pollInputs.emuChecked = false := by decide

/-- EmuExtRefusesWhereTheSourceDenies: native; not legacy-clean; legacy-clean with a legacy and with an `EXT816`
opcode. -/
theorem witness_emuExt :
    let p := { Platform.default with emuExt := .refuse }
    let s := { State.reset with platform := p }
    s.platform.emuExt = .refuse ∧ State.e { native with platform := p } = false
    ∧ (State.e { s with d := 1 } = true ∧ ¬ ((1 : Word) = 0 ∧ s.dbr = 0 ∧ s.pbr = 0))
    ∧ (s.e = true ∧ s.d = 0 ∧ s.dbr = 0 ∧ s.pbr = 0 ∧ s.pollInputs.check = .execute
      ∧ s.pollInputs.fetchInstr = .ok (.brk 0))
    ∧ ext816 (Instr.opcode (.pea 0)) = true ∧ ext816 (Instr.opcode (.brk 0)) = false := by decide

/-- RtiUndoesInterruptEntry, in both modes, in emulation mode with a frame that wraps in the page. -/
theorem witness_rti :
    let s := { State.reset with sp := 0x0101 }
    (s.wf = true ∧ ∀ n < 4, kindAt s.platform.memMap (joinAddr 0 (s.stackSlot .page (-BitVec.ofNat 16 n))).toNat = .ram)
    ∧ native.wf = true
    ∧ ∀ n < 4, kindAt native.platform.memMap (joinAddr 0 (native.stackSlot .page (-BitVec.ofNat 16 n))).toNat = .ram := by
  decide

/-- ReturnUndoesCall: JSR in emulation mode, the other two calls in native mode. -/
theorem witness_calls :
    (State.reset.modeOk = true
      ∧ (∀ n < 3, kindAt State.reset.platform.memMap
        (joinAddr 0 (State.reset.stackSlot .page (-BitVec.ofNat 16 n))).toNat = .ram)
      ∧ ∃ t, exec (.jsrAbs 0x1234) State.reset = .next t)
    ∧ native.modeOk = true
    ∧ (∀ n < 3, kindAt native.platform.memMap (joinAddr 0 (native.stackSlot .page (-BitVec.ofNat 16 n))).toNat = .ram)
    ∧ native.e = false ∧ (∃ t, exec (.jsrIndx 0x1234) native = .next t)
    ∧ ∃ t, exec (.jsl 0x123456) native = .next t :=
  ⟨⟨by decide, by decide, _, rfl⟩, by decide, by decide, rfl, ⟨_, rfl⟩, _, rfl⟩

/-- RamReadsTheLastWrite: the last address of a ROM and the RAM address behind it. -/
theorem witness_kinds :
    let map : List Region := [{ base := 0x8000, size := 0x1000, kind := .rom }]
    kindAt map 0x8FFF ≠ .ram ∧ kindAt map 0x9000 = .ram ∧ kindAt map 0x7FFF = .ram ∧ (0x9000 : Addr) ≠ 0x8FFF := by decide

end Sys2Proof.Tests
end

section
/-! The scope of the model (00_scope.md): what one step runs, and what `EMU_EXT = refuse` refuses. -/

namespace Sys2Proof

/-! ## The encoding's length and the decoder on four bytes (R100, R102, R105) -/

theorem MemMode.length_bytes (md : MemMode) : md.bytes.length = md.size := by
  cases md <;> rfl

theorem Operand.length_bytes (m x : Bool) (o : Operand) : (o.bytes m x).length = o.size m x := by
  cases o with
  | data md => exact md.length_bytes
  | immM v => cases m <;> rfl
  | immX v => cases x <;> rfl
  | _ => rfl

/-- An encoding has as many bytes as R102's `length` says. -/
theorem length_encode (m x : Bool) (i : Instr) : (encode m x i).length = i.length m x := by
  rw [encode, List.length_cons, Operand.length_bytes, Instr.length, Nat.add_comm]

theorem opcodeMap_rows : ∀ row ∈ opcodeMap, row.length = 16 := by
  simp only [opcodeMap, List.forall_mem_cons, List.not_mem_nil, false_imp_iff, implies_true, and_true]
  exact ⟨rfl, rfl, rfl, rfl, rfl, rfl, rfl, rfl, rfl, rfl, rfl, rfl, rfl, rfl, rfl, rfl⟩

/-- Every opcode byte has a cell of the opcode map (R107). -/
theorem exists_opcodeShape (op : Byte) : ∃ sh, opcodeShape op = some sh := by
  have hop := op.isLt
  have hrow : op.toNat / 16 < opcodeMap.length := by
    have : opcodeMap.length = 16 := rfl
    omega
  have hcell : op.toNat % 16 < opcodeMap[op.toNat / 16].length := by
    rw [opcodeMap_rows _ (List.getElem_mem hrow)]
    omega
  exact ⟨opcodeMap[op.toNat / 16][op.toNat % 16], by
    rw [opcodeShape, List.getElem?_eq_getElem hrow, Option.bind_some, List.getElem?_eq_getElem hcell]⟩

/-- Three bytes are enough for the operand of any cell (R102). -/
theorem Shape.read_three (m x : Bool) (sh : Shape) (b1 b2 b3 : Byte) :
    ∃ r, sh.read m x [b1, b2, b3] = .ok r := by
  cases sh with
  | immM f => cases m <;> exact ⟨_, rfl⟩
  | immX f => cases x <;> exact ⟨_, rfl⟩
  | _ => exact ⟨_, rfl⟩

/-- Any four bytes begin with an instruction (R100, R107). -/
theorem decode_four (m x : Bool) (b0 b1 b2 b3 : Byte) : ∃ r, decode m x [b0, b1, b2, b3] = .ok r := by
  obtain ⟨sh, hsh⟩ := exists_opcodeShape b0
  simpa only [decode, hsh] using sh.read_three m x b1 b2 b3

namespace Machine

/-! ## Fetching -/

/-- The four fetched bytes, as a list over their places (R30). -/
theorem State.fetchBytes_eq_map (s : State) :
    s.fetchBytes = [0, 1, 2, 3].map fun k => s.readByte (joinAddr s.pbr (s.pc + BitVec.ofNat 16 k)) := rfl

theorem State.fetchInstr_of_decode {s : State} {i : Instr} {rest : List Byte}
    (h : decode (s.flag .m) (s.flag .x) s.fetchBytes = .ok (i, rest)) : s.fetchInstr = .ok i := by
  rw [State.fetchInstr, h]

/-- There is an instruction at every `PBR:PC` (R107). -/
theorem State.exists_fetchInstr (s : State) : ∃ i, s.fetchInstr = .ok i := by
  obtain ⟨⟨i, rest⟩, h⟩ :=
    decode_four (s.flag .m) (s.flag .x) (s.fetchByte 0) (s.fetchByte 1) (s.fetchByte 2) (s.fetchByte 3)
  exact ⟨i, State.fetchInstr_of_decode h⟩

/-! ## Taking in the inputs -/

/-- The five fields the environment's inputs reach (R404, R402). -/
theorem State.pollInputs_eq (s : State) :
    s.pollInputs = { s with
      irqLine := s.pollInputs.irqLine
      resetReq := s.pollInputs.resetReq
      abortReq := s.pollInputs.abortReq
      nmiPending := s.pollInputs.nmiPending
      schedule := s.pollInputs.schedule } := by
  unfold State.pollInputs
  cases s.schedule <;> rfl

section
variable (s : State)

@[simp] theorem State.pollInputs_d : s.pollInputs.d = s.d := by rw [s.pollInputs_eq]
@[simp] theorem State.pollInputs_dbr : s.pollInputs.dbr = s.dbr := by rw [s.pollInputs_eq]
@[simp] theorem State.pollInputs_pbr : s.pollInputs.pbr = s.pbr := by rw [s.pollInputs_eq]
@[simp] theorem State.pollInputs_pc : s.pollInputs.pc = s.pc := by rw [s.pollInputs_eq]
@[simp] theorem State.pollInputs_p : s.pollInputs.p = s.p := by rw [s.pollInputs_eq]
@[simp] theorem State.pollInputs_e : s.pollInputs.e = s.e := by rw [s.pollInputs_eq]
@[simp] theorem State.pollInputs_platform : s.pollInputs.platform = s.platform := by rw [s.pollInputs_eq]
@[simp] theorem State.pollInputs_mem : s.pollInputs.mem = s.mem := by rw [s.pollInputs_eq]
@[simp] theorem State.pollInputs_draws : s.pollInputs.draws = s.draws := by rw [s.pollInputs_eq]

@[simp] theorem State.flag_pollInputs (f : Flag) : s.pollInputs.flag f = s.flag f :=
  State.flag_congr _ _ s.pollInputs_p f

@[simp] theorem State.readByte_pollInputs (a : Addr) : s.pollInputs.readByte a = s.readByte a :=
  State.readByte_congr _ _ a s.pollInputs_platform s.pollInputs_draws (by rw [s.pollInputs_mem])

@[simp] theorem State.fetchBytes_pollInputs : s.pollInputs.fetchBytes = s.fetchBytes := by
  simp [State.fetchBytes, State.fetchByte]

end

/-! ## What every instruction answers -/

/-- Every instruction has a meaning on every state. -/
theorem exec_answers (i : Instr) (s : State) : ∃ t, exec i s = .next t := by
  cases i <;> exact ⟨_, rfl⟩

/-- No instruction draws on its own account: the draw counter moves at the end of a step alone. -/
theorem exec_draws {i : Instr} {s t : State} (h : exec i s = .next t) : t.draws = s.draws := by
  cases i <;> (obtain rfl := Host.Outcome.next.inj h; simp)

/-! ## Running an instruction -/

/-- An instruction that is not refused runs, and the step's end follows (R10, R404 case 8). -/
theorem runInstr_of_allowed {s : State} {i : Instr} (hf : s.fetchInstr = .ok i)
    (hr : s.emuRefusesInstr i = false) :
    ∃ w, exec i (s.advance i) = .next w ∧ runInstr s = .next w.endStep := by
  obtain ⟨w, hw⟩ := exec_answers i (s.advance i)
  exact ⟨w, hw, by simp only [runInstr, hf, hr, hw, mapNext, Bool.false_eq_true, if_false]⟩

theorem runInstr_of_refused {s : State} {i : Instr} (hf : s.fetchInstr = .ok i)
    (hr : s.emuRefusesInstr i = true) : runInstr s = .refused .emuExt := by
  simp only [runInstr, hf, hr, if_true]

/-- Running an instruction is refused for the fetched instruction alone. -/
theorem runInstr_refused_iff (s : State) :
    runInstr s = .refused .emuExt ↔ ∃ i, s.fetchInstr = .ok i ∧ s.emuRefusesInstr i = true := by
  obtain ⟨i, hf⟩ := s.exists_fetchInstr
  cases hr : s.emuRefusesInstr i with
  | true => exact iff_of_true (runInstr_of_refused hf hr) ⟨i, hf, hr⟩
  | false =>
    obtain ⟨w, -, hrun⟩ := runInstr_of_allowed hf hr
    simp [hrun, hf, hr]

/-- The end of a step after an instruction's work (R25). -/
theorem endsStep_endStep {u w : State} (h : w.draws = u.draws) : EndsStep u w w.endStep := by
  rw [EndsStep, ← h]
  rfl

/-! ## The emulation-mode check (R6, R43, R109, R163, R420) -/

theorem State.emuChecked_iff (s : State) : s.emuChecked = true ↔ s.platform.emuExt = .refuse ∧ s.e = true := by
  simp [State.emuChecked]

/-- In emulation mode `LegacyClean` is D, DBR and PBR all zero (R43). -/
theorem State.legacyClean_iff {s : State} (he : s.e = true) :
    s.legacyClean = true ↔ s.d = 0 ∧ s.dbr = 0 ∧ s.pbr = 0 := by
  simp [State.legacyClean, he, and_assoc]

/-- Where the check applies, a state is refused unless it is legacy-clean (R6). -/
theorem State.emuRefusesState_iff {s : State} (hc : s.emuChecked = true) :
    s.emuRefusesState = true ↔ ¬ (s.d = 0 ∧ s.dbr = 0 ∧ s.pbr = 0) := by
  have he : s.e = true := (s.emuChecked_iff.mp hc).2
  rw [State.emuRefusesState, hc, Bool.true_and, ← State.legacyClean_iff he, Bool.not_eq_true', Bool.not_eq_true]

/-- An address is outside bank `$00` from 65536 on (R70). -/
theorem bankOf_ne_zero_iff (a : Addr) : bankOf a ≠ 0 ↔ 65536 ≤ a.toNat := by
  have := a.isLt
  rw [ne_eq, ← BitVec.toNat_inj]
  simp only [bankOf, BitVec.extractLsb'_toNat, Nat.shiftRight_eq_div_pow, BitVec.ofNat_eq_ofNat, BitVec.toNat_ofNat]
  omega

theorem leavesBank0_iff (s : State) (i : Instr) :
    leavesBank0 s i = true ↔ ∃ md, i.operand = .data md ∧ 65536 ≤ (s.ea md).first.toNat := by
  unfold leavesBank0
  cases ho : i.operand with
  | data md => simp [← bankOf_ne_zero_iff]
  | _ => simp

theorem State.emuRefusesInstr_iff {s : State} (hc : s.emuChecked = true) (i : Instr) :
    s.emuRefusesInstr i = true ↔
      (ext816 i.opcode = true ∨ ∃ md, i.operand = .data md ∧ 65536 ≤ (s.ea md).first.toNat) := by
  rw [State.emuRefusesInstr, hc, Bool.true_and, Bool.or_eq_true, leavesBank0_iff]

/-- Where the check applies, an action is refused when it aborts, or runs an instruction that is refused. -/
theorem perform_refused_iff {s : State} (hc : s.emuChecked = true) (a : Action) :
    perform s a = .refused .emuExt ↔
      a = .abort ∨ a = .execute ∧ ∃ i, s.fetchInstr = .ok i ∧ s.emuRefusesInstr i = true := by
  cases a with
  | abort => simp [perform, runAbort, hc]
  | execute => simp [perform, runInstr_refused_iff]
  | _ => simp [perform]

/-- Where the check does not apply, every action answers a next state. -/
theorem perform_answers {s : State} (hc : s.emuChecked = false) (a : Action) : ∃ t, perform s a = .next t := by
  cases a with
  | abort => exact ⟨_, by rw [perform, runAbort, hc]; rfl⟩
  | execute =>
    obtain ⟨i, hf⟩ := s.exists_fetchInstr
    obtain ⟨w, -, hrun⟩ := runInstr_of_allowed hf (i := i) (by rw [State.emuRefusesInstr, hc, Bool.false_and])
    exact ⟨_, hrun⟩
  | _ => exact ⟨_, rfl⟩

/-! ## One step -/

theorem step_of_refused {s : State} (h : s.pollInputs.emuRefusesState = true) : step s = .refused .emuExt := by
  rw [step, stepChecked, if_pos h]

theorem step_of_allowed {s : State} (h : s.pollInputs.emuRefusesState = false) :
    step s = perform s.pollInputs s.pollInputs.check := by
  rw [step, stepChecked, h]
  rfl

/-- Where the check does not apply, every step answers a next state (R6). -/
theorem step_answers {s : State} (hc : s.pollInputs.emuChecked = false) : ∃ t, step s = .next t := by
  rw [step_of_allowed (by rw [State.emuRefusesState, hc, Bool.false_and])]
  exact perform_answers hc _

/-- Settles O57: the three cases are the check that does not apply, the state that is refused and, in a legacy-clean
state, the action that is refused. -/
theorem emuExtRefusesWhereTheSourceDenies : Obligations.EmuExtRefusesWhereTheSourceDenies := by
  intro s href
  have hchecked (he : s.e = true) : s.pollInputs.emuChecked = true := by simp [State.emuChecked_iff, href, he]
  have hstate (he : s.e = true) : s.pollInputs.emuRefusesState = true ↔ ¬ (s.d = 0 ∧ s.dbr = 0 ∧ s.pbr = 0) := by
    simpa only [State.pollInputs_d, State.pollInputs_dbr, State.pollInputs_pbr]
      using State.emuRefusesState_iff (hchecked he)
  refine ⟨fun he => ?native, fun he hdirty => ?dirty, fun he hclean => ?clean⟩
  case native => exact step_answers (by simp [State.emuChecked, he])
  case dirty => exact step_of_refused ((hstate he).mpr hdirty)
  case clean =>
    have hallowed : s.pollInputs.emuRefusesState = false :=
      Bool.eq_false_iff.mpr fun h => (hstate he).mp h hclean
    rw [step_of_allowed hallowed, perform_refused_iff (hchecked he)]
    simp only [State.emuRefusesInstr_iff (hchecked he)]

/-- Settles O6: the inputs change nothing a fetch reads, so the step runs the instruction decoded at `PBR:PC`. -/
theorem stepRunsTheDecodedInstruction : Obligations.StepRunsTheDecodedInstruction := by
  intro s i rest hcheck hstate hinstr hdec
  rw [← State.fetchBytes_eq_map] at hdec
  have hf : s.pollInputs.fetchInstr = .ok i := State.fetchInstr_of_decode (rest := rest) (by simpa using hdec)
  obtain ⟨w, hw, hrun⟩ := runInstr_of_allowed hf hinstr
  have hadv : s.pollInputs.advance i = { s.pollInputs with
      pc := s.pc + BitVec.ofNat 16 (encode (s.flag .m) (s.flag .x) i).length } := by
    simp [State.advance, length_encode]
  refine ⟨w, hadv ▸ hw, w.endStep, ?_, endsStep_endStep ?_⟩
  · rw [step_of_allowed hstate, hcheck]
    exact hrun
  · simpa using exec_draws hw

end Machine
end Sys2Proof
end

section
/-! The state's registers and invariants (10_state.md): what an instruction can change, what every step keeps. -/

namespace Sys2Proof
namespace Machine

/-! ## What an instruction can make of a state -/

/-- The states an instruction of a given mnemonic can answer, by the operations its meanings are made of; the values
and addresses involved are any. -/
inductive Effect (s : State) : Mnemonic → State → Prop where
  | done {mn} (h : mn ∈ [.nop, .wdm]) : Effect s mn s
  | setRun {mn} (r : RunState) (h : mn ∈ [.wai, .stp]) : Effect s mn (s.withRun r)
  | setFlag {mn} (f : Flag) (b : Bool) (hm : f ≠ .m) (hx : f ≠ .x)
      (h : mn ∈ [.clc, .sec, .cli, .sei, .cld, .sed, .clv]) : Effect s mn (s.setFlag f b)
  | resetBits (k : Byte) : Effect s .rep (s.resetBits k)
  | setBits (k : Byte) : Effect s .sep (s.writeP (s.p ||| k))
  | pullStatus : Effect s .plp ((s.popped .page).pulledP (s.pull8 .page))
  | exchangeCE : Effect s .xce s.exchangeCE
  | loadAcc {mn} (v : Word) (h : mn ∈ [.lda, .and, .ora, .eor, .inc, .dec, .txa, .tya]) : Effect s mn (s.loadAcc v)
  | putArith {mn} (r : ArithResult) (h : mn ∈ [.adc, .sbc]) : Effect s mn (s.putArith r)
  | shiftAcc {mn} (op : ShiftOp) (h : mn ∈ [.asl, .lsr, .rol, .ror]) : Effect s mn (s.shiftAcc op)
  | loadC {mn} (v : Word) (h : mn ∈ [.tdc, .tsc]) : Effect s mn (s.loadC v)
  | swapAccBytes : Effect s .xba s.swapAccBytes
  | pullAcc (v : Word) : Effect s .pla ((s.poppedW .page s.wM).loadAcc v)
  | loadX {mn} (v : Word) (h : mn ∈ [.ldx, .inx, .dex, .tax, .tsx, .tyx]) : Effect s mn (s.loadX v)
  | pullX (v : Word) : Effect s .plx ((s.poppedW .page s.wX).loadX v)
  | loadY {mn} (v : Word) (h : mn ∈ [.ldy, .iny, .dey, .tay, .txy]) : Effect s mn (s.loadY v)
  | pullY (v : Word) : Effect s .ply ((s.poppedW .page s.wX).loadY v)
  | loadD (v : Word) : Effect s .tcd (s.loadD v)
  | pullD : Effect s .pld s.pullD
  | pullDbr : Effect s .plb s.pullDbr
  | setSp {mn} (v : Word) (h : mn ∈ [.txs, .tcs]) : Effect s mn (s.setSp v)
  | compare {mn} (w : Width) (a b : Word) (h : mn ∈ [.cmp, .cpx, .cpy]) : Effect s mn (s.compare w a b)
  | testZero (v : Word) : Effect s .bit (s.testZero v)
  | testBits (v : Word) : Effect s .bit (s.testBits v)
  | store {mn} (ea : Ea) (w : Width) (v : Word) (h : mn ∈ [.sta, .stx, .sty, .stz]) : Effect s mn (s.store ea w v)
  | modifyMem {mn} (md : MemMode) (r : Word) (h : mn ∈ [.inc, .dec]) : Effect s mn (s.modifyMem md r)
  | shiftMem {mn} (op : ShiftOp) (md : MemMode) (h : mn ∈ [.asl, .lsr, .rol, .ror]) : Effect s mn (s.shiftMem op md)
  | testAndWrite {mn} (md : MemMode) (r : Word) (h : mn ∈ [.tsb, .trb]) : Effect s mn (s.testAndWrite md r)
  | moveByte {mn} (dir : Word) (dst src : Byte) (h : mn ∈ [.mvn, .mvp]) : Effect s mn (s.moveByte dir dst src)
  | push8 {mn} (v : Byte) (h : mn ∈ [.php, .phb, .phk]) : Effect s mn (s.push8 .page v)
  | push16 {mn} (v : Word) (h : mn ∈ [.phd, .pea, .pei, .per]) : Effect s mn (s.push16 .wide v)
  | pushW {mn} (w : Width) (v : Word) (h : mn ∈ [.pha, .phx, .phy]) : Effect s mn (s.pushW .page w v)
  | branchIf {mn} (c : Bool) (o : Byte) (h : mn ∈ [.bcc, .bcs, .beq, .bne, .bmi, .bpl, .bvc, .bvs, .bra]) :
      Effect s mn (s.branchIf c o)
  | jump {mn} (a : Word) (h : mn ∈ [.brl, .jmp]) : Effect s mn (s.jump a)
  | jumpLong (a : Addr) : Effect s .jml (s.jumpLong a)
  | call (k : StackRule) (a : Word) : Effect s .jsr ((s.pushReturn k).jump a)
  | callLong (a : Addr) : Effect s .jsl (((s.push8 .wide s.pbr).pushReturn .wide).jumpLong a)
  | returnNear : Effect s .rts s.returnNear
  | returnLong : Effect s .rtl s.returnLong
  | returnFromInterrupt : Effect s .rti s.returnFromInterrupt
  | brk : Effect s .brk (s.enter .brk)
  | cop : Effect s .cop (s.enter .cop)

/-- Every instruction answers, and its answer is one of its mnemonic's effects. -/
theorem exec_effect (i : Instr) (s : State) : ∃ t, exec i s = .next t ∧ Effect s i.mnemonic t := by
  cases i with
  | nop | wdm => exact ⟨_, rfl, .done (List.mem_of_elem_eq_true rfl)⟩
  | wai | stp => exact ⟨_, rfl, .setRun _ (List.mem_of_elem_eq_true rfl)⟩
  | clc | sec | cli | sei | cld | sed | clv =>
    exact ⟨_, rfl, .setFlag _ _ (by decide) (by decide) (List.mem_of_elem_eq_true rfl)⟩
  | rep => exact ⟨_, rfl, .resetBits _⟩
  | sep => exact ⟨_, rfl, .setBits _⟩
  | plp => exact ⟨_, rfl, .pullStatus⟩
  | xce => exact ⟨_, rfl, .exchangeCE⟩
  | ldaIdpx | ldaSr | ldaDp | ldaIldp | ldaImm | ldaAbs | ldaLong | ldaIdpy | ldaIdp | ldaIsry | ldaDpx
    | ldaIldpy | ldaAbsy | ldaAbsx | ldaLongx
  | andIdpx | andSr | andDp | andIldp | andImm | andAbs | andLong | andIdpy | andIdp | andIsry | andDpx
    | andIldpy | andAbsy | andAbsx | andLongx
  | oraIdpx | oraSr | oraDp | oraIldp | oraImm | oraAbs | oraLong | oraIdpy | oraIdp | oraIsry | oraDpx
    | oraIldpy | oraAbsy | oraAbsx | oraLongx
  | eorIdpx | eorSr | eorDp | eorIldp | eorImm | eorAbs | eorLong | eorIdpy | eorIdp | eorIsry | eorDpx
    | eorIldpy | eorAbsy | eorAbsx | eorLongx
  | incAcc | decAcc | txa | tya => exact ⟨_, rfl, .loadAcc _ (List.mem_of_elem_eq_true rfl)⟩
  | adcIdpx | adcSr | adcDp | adcIldp | adcImm | adcAbs | adcLong | adcIdpy | adcIdp | adcIsry | adcDpx
    | adcIldpy | adcAbsy | adcAbsx | adcLongx
  | sbcIdpx | sbcSr | sbcDp | sbcIldp | sbcImm | sbcAbs | sbcLong | sbcIdpy | sbcIdp | sbcIsry | sbcDpx
    | sbcIldpy | sbcAbsy | sbcAbsx | sbcLongx => exact ⟨_, rfl, .putArith _ (List.mem_of_elem_eq_true rfl)⟩
  | aslAcc | lsrAcc | rolAcc | rorAcc => exact ⟨_, rfl, .shiftAcc _ (List.mem_of_elem_eq_true rfl)⟩
  | tdc | tsc => exact ⟨_, rfl, .loadC _ (List.mem_of_elem_eq_true rfl)⟩
  | xba => exact ⟨_, rfl, .swapAccBytes⟩
  | pla => exact ⟨_, rfl, .pullAcc _⟩
  | ldxImm | ldxDp | ldxAbs | ldxDpy | ldxAbsy | inx | dex | tax | tsx | tyx =>
    exact ⟨_, rfl, .loadX _ (List.mem_of_elem_eq_true rfl)⟩
  | plx => exact ⟨_, rfl, .pullX _⟩
  | ldyImm | ldyDp | ldyAbs | ldyDpx | ldyAbsx | iny | dey | tay | txy =>
    exact ⟨_, rfl, .loadY _ (List.mem_of_elem_eq_true rfl)⟩
  | ply => exact ⟨_, rfl, .pullY _⟩
  | tcd => exact ⟨_, rfl, .loadD _⟩
  | pld => exact ⟨_, rfl, .pullD⟩
  | plb => exact ⟨_, rfl, .pullDbr⟩
  | txs | tcs => exact ⟨_, rfl, .setSp _ (List.mem_of_elem_eq_true rfl)⟩
  | cmpIdpx | cmpSr | cmpDp | cmpIldp | cmpImm | cmpAbs | cmpLong | cmpIdpy | cmpIdp | cmpIsry | cmpDpx
    | cmpIldpy | cmpAbsy | cmpAbsx | cmpLongx
  | cpxImm | cpxDp | cpxAbs | cpyImm | cpyDp | cpyAbs =>
    exact ⟨_, rfl, .compare _ _ _ (List.mem_of_elem_eq_true rfl)⟩
  | bitImm => exact ⟨_, rfl, .testZero _⟩
  | bitDp | bitAbs | bitDpx | bitAbsx => exact ⟨_, rfl, .testBits _⟩
  | staIdpx | staSr | staDp | staIldp | staAbs | staLong | staIdpy | staIdp | staIsry | staDpx | staIldpy
    | staAbsy | staAbsx | staLongx
  | stxDp | stxAbs | stxDpy | styDp | styAbs | styDpx
  | stzDp | stzDpx | stzAbs | stzAbsx => exact ⟨_, rfl, .store _ _ _ (List.mem_of_elem_eq_true rfl)⟩
  | incDp | incAbs | incDpx | incAbsx | decDp | decAbs | decDpx | decAbsx =>
    exact ⟨_, rfl, .modifyMem _ _ (List.mem_of_elem_eq_true rfl)⟩
  | aslDp | aslAbs | aslDpx | aslAbsx | lsrDp | lsrAbs | lsrDpx | lsrAbsx
  | rolDp | rolAbs | rolDpx | rolAbsx | rorDp | rorAbs | rorDpx | rorAbsx =>
    exact ⟨_, rfl, .shiftMem _ _ (List.mem_of_elem_eq_true rfl)⟩
  | tsbDp | tsbAbs | trbDp | trbAbs => exact ⟨_, rfl, .testAndWrite _ _ (List.mem_of_elem_eq_true rfl)⟩
  | mvn | mvp => exact ⟨_, rfl, .moveByte _ _ _ (List.mem_of_elem_eq_true rfl)⟩
  | php | phb | phk => exact ⟨_, rfl, .push8 _ (List.mem_of_elem_eq_true rfl)⟩
  | phd | pea | pei | per => exact ⟨_, rfl, .push16 _ (List.mem_of_elem_eq_true rfl)⟩
  | pha | phx | phy => exact ⟨_, rfl, .pushW _ _ (List.mem_of_elem_eq_true rfl)⟩
  | bcc | bcs | beq | bne | bmi | bpl | bvc | bvs | bra =>
    exact ⟨_, rfl, .branchIf _ _ (List.mem_of_elem_eq_true rfl)⟩
  | brl | jmpAbs | jmpInd | jmpIndx => exact ⟨_, rfl, .jump _ (List.mem_of_elem_eq_true rfl)⟩
  | jmlLong | jmlIndl => exact ⟨_, rfl, .jumpLong _⟩
  | jsrAbs | jsrIndx => exact ⟨_, rfl, .call _ _⟩
  | jsl => exact ⟨_, rfl, .callLong _⟩
  | rts => exact ⟨_, rfl, .returnNear⟩
  | rtl => exact ⟨_, rfl, .returnLong⟩
  | rti => exact ⟨_, rfl, .returnFromInterrupt⟩
  | brk => exact ⟨_, rfl, .brk⟩
  | cop => exact ⟨_, rfl, .cop⟩

theorem effect_of_exec {i : Instr} {s t : State} (h : exec i s = .next t) : Effect s i.mnemonic t := by
  obtain ⟨w, hw, heff⟩ := exec_effect i s
  rw [h] at hw
  cases hw
  exact heff

/-! ## Which registers an instruction can change (R23, R26 to R30, R40, R50) -/

section
variable {s t : State} {mn : Mnemonic}

theorem Effect.d_eq (h : Effect s mn t) : t.d = s.d ∨ mn ∈ [.tcd, .pld] := by
  cases h <;> simp

theorem Effect.dbr_eq (h : Effect s mn t) : t.dbr = s.dbr ∨ mn ∈ [.plb, .mvn, .mvp] := by
  cases h with
  | moveByte dir dst src h => exact .inr (List.mem_cons_of_mem _ h)
  | _ => simp

theorem Effect.pbr_eq (h : Effect s mn t) : t.pbr = s.pbr ∨ mn ∈ [.jml, .jsl, .rtl, .rti, .brk, .cop] := by
  cases h <;> simp

theorem Effect.e_eq (h : Effect s mn t) : t.e = s.e ∨ mn = .xce := by
  cases h <;> simp

theorem Effect.c_eq (h : Effect s mn t) :
    t.c = s.c ∨ mn ∈ [.lda, .adc, .sbc, .and, .ora, .eor, .asl, .lsr, .rol, .ror, .inc, .dec, .pla,
      .txa, .tya, .tdc, .tsc, .xba, .mvn, .mvp] := by
  cases h with
  | loadAcc v h | putArith r h | shiftAcc op h | loadC v h | moveByte dir dst src h =>
    exact .inr (List.subset_def.mp (by decide) h)
  | _ => simp

theorem Effect.x_eq (h : Effect s mn t) :
    t.x = s.x ∨ mn ∈ [.ldx, .inx, .dex, .plx, .tax, .tsx, .tyx, .mvn, .mvp, .sep, .plp, .rti, .xce] := by
  cases h with
  | loadX v h | moveByte dir dst src h => exact .inr (List.subset_def.mp (by decide) h)
  | _ => simp

theorem Effect.y_eq (h : Effect s mn t) :
    t.y = s.y ∨ mn ∈ [.ldy, .iny, .dey, .ply, .tay, .txy, .mvn, .mvp, .sep, .plp, .rti, .xce] := by
  cases h with
  | loadY v h | moveByte dir dst src h => exact .inr (List.subset_def.mp (by decide) h)
  | _ => simp

theorem Effect.pc_eq (h : Effect s mn t) :
    t.pc = s.pc ∨ mn ∈ [.bcc, .bcs, .beq, .bne, .bmi, .bpl, .bvc, .bvs, .bra, .brl, .jmp, .jml, .jsr, .jsl, .rts,
      .rtl, .rti, .brk, .cop, .mvn, .mvp] := by
  cases h with
  | branchIf c o h | jump a h | moveByte dir dst src h => exact .inr (List.subset_def.mp (by decide) h)
  | _ => simp

theorem Effect.run_eq (h : Effect s mn t) : t.run = s.run ∨ mn ∈ [.wai, .stp] := by
  cases h with
  | setRun r h => exact .inr h
  | _ => simp

/-- The inputs, the schedule and the platform are the environment's (R5, R45, R402). -/
theorem Effect.environment_eq (h : Effect s mn t) :
    t.nmiPending = s.nmiPending ∧ t.irqLine = s.irqLine ∧ t.abortReq = s.abortReq ∧ t.resetReq = s.resetReq
      ∧ t.schedule = s.schedule ∧ t.platform = s.platform := by
  cases h with
  | brk | cop => simp [State.enter]
  | _ => simp

end

/-- Settles O49: each register has its own lemma over the effects. -/
theorem onlyTheseInstructionsWriteARegister : Obligations.OnlyTheseInstructionsWriteARegister := by
  intro i s t h
  have heff := effect_of_exec h
  exact ⟨heff.d_eq, heff.dbr_eq, heff.pbr_eq, heff.e_eq, heff.c_eq, heff.x_eq, heff.y_eq⟩

/-- Settles O52: the instructions that may change PBR are among those that may change PC. -/
theorem onlyTransfersMoveThePc : Obligations.OnlyTransfersMoveThePc := by
  intro i s t h
  have heff := effect_of_exec h
  refine ⟨fun hmn => ⟨heff.pc_eq.resolve_right hmn, ?_⟩, heff.pbr_eq.resolve_right⟩
  exact heff.pbr_eq.resolve_right fun hlong => hmn (List.subset_def.mp (by decide) hlong)

/-! ## What a step does -/

/-- The work of a step on a state whose inputs are up to date, before S is forced: one of the actions of R404. -/
inductive Work (s : State) : State → Prop where
  | reset : Work s s.resetEvent
  | idle : Work s s
  | interrupt (k : IntKind) : Work s (s.resume.enter k)
  | wake : Work s s.resume
  | abort : Work s s.takeAbort
  | execute {i : Instr} {w : State} (h : exec i (s.advance i) = .next w) : Work s w

/-- What the check found is work, then the forcing of S; where something was done, the draw counter moves on (R25,
R404). -/
theorem perform_work {s t : State} {a : Action} (h : perform s a = .next t) :
    ∃ w, Work s w ∧ (t = w.forceStackPage ∨ t = w.endStep) := by
  cases a with
  | reset => cases h; exact ⟨_, .reset, .inr rfl⟩
  | idle => cases h; exact ⟨_, .idle, .inl rfl⟩
  | interrupt k => cases h; exact ⟨_, .interrupt k, .inr rfl⟩
  | wake => cases h; exact ⟨_, .wake, .inl rfl⟩
  | abort =>
    rw [perform, runAbort] at h
    split at h <;> cases h
    exact ⟨_, .abort, .inr rfl⟩
  | execute =>
    obtain ⟨i, hf⟩ := s.exists_fetchInstr
    cases hr : s.emuRefusesInstr i with
    | true =>
      rw [perform, runInstr_of_refused hf hr] at h
      cases h
    | false =>
      obtain ⟨w, hw, hrun⟩ := runInstr_of_allowed hf hr
      rw [perform, hrun] at h
      cases h
      exact ⟨w, .execute hw, .inr rfl⟩

/-- A step that answers takes in the inputs, does its work and forces S. -/
theorem step_work {s t : State} (h : step s = .next t) :
    ∃ w, Work s.pollInputs w ∧ (t = w.forceStackPage ∨ t = w.endStep) := by
  cases hr : s.pollInputs.emuRefusesState with
  | true =>
    rw [step_of_refused hr] at h
    cases h
  | false =>
    rw [step_of_allowed hr] at h
    exact perform_work h

/-- No work of a step reaches the schedule or the platform. -/
theorem Work.environment_eq {s w : State} (h : Work s w) : w.platform = s.platform ∧ w.schedule = s.schedule := by
  cases h with
  | execute h =>
    obtain ⟨-, -, -, -, hsched, hplat⟩ := (effect_of_exec h).environment_eq
    exact ⟨hplat, hsched⟩
  | _ => simp [State.resetEvent, State.takeAbort]

theorem State.pollInputs_schedule (s : State) : s.pollInputs.schedule = s.schedule.tail := by
  unfold State.pollInputs
  cases h : s.schedule with
  | nil => exact h
  | cons i rest => rfl

/-- Settles O51: no effect reaches the environment, and a step only takes one entry off the schedule. -/
theorem instructionsLeaveTheEnvironmentAlone : Obligations.InstructionsLeaveTheEnvironmentAlone := by
  refine ⟨fun i s t h => ?exec, fun s t h => ?step⟩
  case exec =>
    have heff := effect_of_exec h
    obtain ⟨hnmi, hirq, habort, hreset, hsched, hplat⟩ := heff.environment_eq
    exact ⟨⟨hnmi, hirq, habort, hreset, hsched, hplat, exec_draws h⟩, heff.run_eq⟩
  case step =>
    obtain ⟨w, hwork, hend⟩ := step_work h
    obtain ⟨hplat, hsched⟩ := hwork.environment_eq
    have ht : t.platform = w.platform ∧ t.schedule = w.schedule := by
      obtain rfl | rfl := hend <;> simp
    exact ⟨by simp [ht, hplat], by rw [ht.2, hsched, s.pollInputs_schedule]⟩

/-! ## The forcing of S at the end of a step (R25) -/

theorem State.highByte_forceStackPage_sp {s : State} (he : s.e = true) : highByte s.forceStackPage.sp = 1 := by
  simp [State.forceStackPage, he]

/-- With SH = `$01` S points into page 1 of bank `$00` (R24, R25). -/
theorem State.stackTop_of_highByte {s : State} (h : highByte s.sp = 1) :
    0x000100 ≤ s.stackTop.toNat ∧ s.stackTop.toNat ≤ 0x0001FF := by
  have hsp := s.sp.isLt
  have hpage := congrArg BitVec.toNat h
  simp only [highByte, BitVec.extractLsb'_toNat, Nat.shiftRight_eq_div_pow, BitVec.ofNat_eq_ofNat,
    BitVec.toNat_ofNat] at hpage
  have htop : s.stackTop.toNat = s.sp.toNat := by
    rw [State.stackTop, joinAddr, BitVec.toNat_append]
    simp
  omega

/-- Settles O10: whatever the step did, it ended with the forcing. -/
theorem stackPageForcedAtEveryStepEnd : Obligations.StackPageForcedAtEveryStepEnd := by
  intro s t h he
  obtain ⟨w, -, rfl | rfl⟩ := step_work h
  all_goals
    have hpage := State.highByte_forceStackPage_sp (s := w) he
    exact ⟨hpage, State.stackTop_of_highByte hpage⟩

/-! ## The invariants inside a step (R23, R42) -/

/-- What every operation inside a step keeps: the parts of `State.wf` but SH, which is forced at the step's end alone
(R25). -/
structure StepInv (s : State) : Prop where
  /-- In emulation mode m and x are 1 (R42). -/
  widths : s.e = true → s.flag .m = true ∧ s.flag .x = true
  /-- With 8-bit indexes XH and YH are zero (R23). -/
  index : s.flag .x = true → highByte s.x = 0 ∧ highByte s.y = 0
  memory : Memory.wf s.mem = true

/-- A state is well-formed when it meets the invariants inside a step and SH is forced (R42). -/
theorem State.wf_iff (s : State) : s.wf = true ↔ StepInv s ∧ (s.e = true → highByte s.sp = 1) := by
  have hmode : s.modeOk = true ↔
      s.e = true → (s.flag .m = true ∧ s.flag .x = true) ∧ highByte s.sp = 1 := by
    cases he : s.e <;> simp [State.modeOk, he]
  have hindex : s.indexOk = true ↔ (s.flag .x = true → highByte s.x = 0 ∧ highByte s.y = 0) := by
    cases hx : s.flag .x <;> simp [State.indexOk, hx]
  rw [State.wf, Bool.and_eq_true, Bool.and_eq_true, hmode, hindex]
  constructor
  · rintro ⟨⟨hm, hi⟩, hmem⟩
    exact ⟨⟨fun he => (hm he).1, hi, hmem⟩, fun he => (hm he).2⟩
  · rintro ⟨⟨hw, hi, hmem⟩, hsp⟩
    exact ⟨⟨fun he => ⟨hw he, hsp he⟩, hi⟩, hmem⟩

/-! ## P and the index registers -/

theorem highByte_clampIndex {p : Byte} (h : p.getLsbD 4 = true) (v : Word) : highByte (clampIndex p v) = 0 := by
  rw [clampIndex, if_pos h, highByte_zeroExtend8]

/-- Reset sets m and x whatever it draws (R48). -/
theorem getLsbD_resetP_m (r : ResetDraw) : (resetP r).getLsbD 5 = true := by
  simp only [resetP, getLsbD_setBit, Nat.reduceLT]
  rfl

theorem getLsbD_resetP_x (r : ResetDraw) : (resetP r).getLsbD 4 = true := by
  simp only [resetP, getLsbD_setBit, Nat.reduceLT]
  rfl

/-- A write of an index register at its current width leaves no high byte under `P.X = 1` (R23). -/
theorem State.highByte_trunc_wX {s : State} (h : s.flag .x = true) (v : Word) : highByte (s.wX.trunc v) = 0 := by
  simp [State.wX, h]

/-- The invariants depend on E, m, x, the index registers and memory alone. -/
theorem StepInv.congr {s t : State} (h : StepInv s) (hmem : Memory.wf t.mem = true) (he : t.e = s.e := by rfl)
    (hfm : t.flag .m = s.flag .m := by rfl) (hfx : t.flag .x = s.flag .x := by rfl) (hx : t.x = s.x := by rfl)
    (hy : t.y = s.y := by rfl) : StepInv t where
  widths := by simpa [he, hfm, hfx] using h.widths
  index := by simpa [hfx, hx, hy] using h.index
  memory := hmem

/-! ## Operations that keep the invariants -/

section
variable {s : State} (hs : StepInv s)
include hs

theorem StepInv.setFlag {f : Flag} (b : Bool) (hm : f ≠ .m := by decide) (hx : f ≠ .x := by decide) :
    StepInv (s.setFlag f b) :=
  hs.congr hs.memory (hfm := by simp [State.flag_setFlag, hm.symm]) (hfx := by simp [State.flag_setFlag, hx.symm])

theorem StepInv.setNZ (w : Width) (v : Word) : StepInv (s.setNZ w v) :=
  (hs.setFlag _).setFlag _

theorem StepInv.setAcc (v : Word) : StepInv (s.setAcc v) := hs.congr hs.memory

theorem StepInv.setX (v : Word) : StepInv (s.setX v) where
  widths := hs.widths
  index hx := ⟨State.highByte_trunc_wX hx v, (hs.index hx).2⟩
  memory := hs.memory

theorem StepInv.setY (v : Word) : StepInv (s.setY v) where
  widths := hs.widths
  index hx := ⟨(hs.index hx).1, State.highByte_trunc_wX hx v⟩
  memory := hs.memory

theorem StepInv.writeByte (a : Addr) (v : Byte) : StepInv (s.writeByte a v) :=
  hs.congr (writeMem_wf _ _ _ _ hs.memory)

theorem StepInv.store (ea : Ea) (w : Width) (v : Word) : StepInv (s.store ea w v) := by
  cases w with
  | byte => exact hs.writeByte _ _
  | word => exact (hs.writeByte _ _).writeByte _ _

theorem StepInv.push8 (k : StackRule) (v : Byte) : StepInv (s.push8 k v) :=
  (hs.writeByte s.stackTop v).congr (State.push8_wf s k v hs.memory)

theorem StepInv.push16 (k : StackRule) (v : Word) : StepInv (s.push16 k v) := (hs.push8 k _).push8 k _

theorem StepInv.pushReturn (k : StackRule) : StepInv (s.pushReturn k) := hs.push16 k _

theorem StepInv.pushW (k : StackRule) (w : Width) (v : Word) : StepInv (s.pushW k w v) := by
  cases w with
  | byte => exact hs.push8 k _
  | word => exact hs.push16 k v

theorem StepInv.popped (k : StackRule) : StepInv (s.popped k) := hs.congr hs.memory

theorem StepInv.poppedW (k : StackRule) (w : Width) : StepInv (s.poppedW k w) := by
  cases w with
  | byte => exact hs.popped k
  | word => exact (hs.popped k).popped k

theorem StepInv.jump (a : Word) : StepInv (s.jump a) := hs.congr hs.memory

theorem StepInv.jumpLong (a : Addr) : StepInv (s.jumpLong a) := hs.congr hs.memory

theorem StepInv.loadAcc (v : Word) : StepInv (s.loadAcc v) := (hs.setAcc v).setNZ _ v

theorem StepInv.loadX (v : Word) : StepInv (s.loadX v) := (hs.setX v).setNZ _ v

theorem StepInv.loadY (v : Word) : StepInv (s.loadY v) := (hs.setY v).setNZ _ v

theorem StepInv.testZero (v : Word) : StepInv (s.testZero v) := hs.setFlag _

theorem StepInv.modifyMem (md : MemMode) (r : Word) : StepInv (s.modifyMem md r) := (hs.store _ _ r).setNZ _ r

theorem StepInv.moveByte (dir : Word) (dst src : Byte) : StepInv (s.moveByte dir dst src) where
  widths := hs.widths
  index hx := ⟨State.highByte_trunc_wX hx _, State.highByte_trunc_wX hx _⟩
  memory := writeMem_wf _ _ _ _ hs.memory

/-- P written with m and x as emulation mode wants them: XH and YH follow x (R23). -/
theorem StepInv.writeP {p : Byte} (hp : s.e = true → p.getLsbD 5 = true ∧ p.getLsbD 4 = true) :
    StepInv (s.writeP p) where
  widths := hp
  index hx := ⟨highByte_clampIndex hx s.x, highByte_clampIndex hx s.y⟩
  memory := hs.memory

/-- SEP only sets bits, so m and x stay 1 where they are (R381). -/
theorem StepInv.setBits (k : Byte) : StepInv (s.writeP (s.p ||| k)) := by
  refine hs.writeP fun he => ?_
  obtain ⟨hm, hx⟩ := hs.widths he
  simp only [State.flag, Flag.bit] at hm hx
  simp only [BitVec.getLsbD_or, hm, hx, Bool.true_or, and_self]

/-- In emulation mode m and x stay 1; in native mode the pulled byte becomes P (R305). -/
theorem StepInv.pulledP (p : Byte) : StepInv (s.pulledP p) := by
  cases he : s.e with
  | true =>
    rw [State.pulledP, if_pos he]
    exact ⟨fun _ => ⟨or_mx_m p, or_mx_x p⟩, fun _ => hs.index (hs.widths he).2, hs.memory⟩
  | false =>
    rw [State.pulledP, if_neg (by simp [he])]
    exact hs.writeP fun he' => by simp [he] at he'

theorem StepInv.returnFromInterrupt : StepInv s.returnFromInterrupt := by
  rw [State.returnFromInterrupt_eq]
  exact (hs.pulledP _).congr (hs.pulledP _).memory

/-- REP only clears bits, so x is 1 afterwards where it was before, or in emulation mode (R380). -/
theorem StepInv.resetBits (k : Byte) : StepInv (s.resetBits k) where
  widths he := by
    rw [State.resetBits_e] at he
    simp only [State.flag, State.resetBits, he, if_true]
    exact ⟨or_mx_m _, or_mx_x _⟩
  index hx := by
    refine hs.index ?_
    cases he : s.e with
    | true => exact (hs.widths he).2
    | false =>
      simp only [State.flag, State.resetBits, he, Bool.false_eq_true, if_false, BitVec.getLsbD_and,
        Bool.and_eq_true] at hx
      exact hx.1
  memory := hs.memory

/-- XCE forces m, x, XH and YH where E becomes 1, and leaves them alone where it becomes 0 (R345). -/
theorem StepInv.exchangeCE : StepInv s.exchangeCE := by
  cases hc : s.flag .c with
  | true =>
    simp only [State.exchangeCE, hc, if_true]
    exact ⟨fun _ => ⟨or_mx_m _, or_mx_x _⟩, fun _ => by simp [State.forceEmulation], hs.memory⟩
  | false =>
    simp only [State.exchangeCE, hc, Bool.false_eq_true, if_false]
    have hflags : StepInv (s.setFlag .c s.e) := hs.setFlag _
    exact ⟨fun he => by simp at he, hflags.index, hs.memory⟩

/-- An entry reaches D and I of the flags alone (R410). -/
theorem StepInv.enter (k : IntKind) : StepInv (s.enter k) := by
  obtain ⟨-, -, ⟨-, hkept⟩, -⟩ := s.enter_entered k
  exact hs.congr (State.pushFrame_wf s k hs.memory) (s.enter_e k) (hkept .m (by decide)) (hkept .x (by decide))
    (s.enter_x k) (s.enter_y k)

theorem StepInv.resetEvent : StepInv s.resetEvent where
  widths _ := ⟨getLsbD_resetP_m _, getLsbD_resetP_x _⟩
  index _ := ⟨highByte_zeroExtend8 _, highByte_zeroExtend8 _⟩
  memory := hs.memory

end

/-- Every instruction keeps the invariants inside a step. -/
theorem Effect.stepInv {s t : State} {mn : Mnemonic} (h : Effect s mn t) (hs : StepInv s) : StepInv t := by
  cases h with
  | setFlag f b hm hx => exact hs.setFlag b hm hx
  | resetBits k => exact hs.resetBits k
  | setBits k => exact hs.setBits k
  | pullStatus => exact (hs.popped _).pulledP _
  | exchangeCE => exact hs.exchangeCE
  | loadAcc v => exact hs.loadAcc v
  | putArith r =>
    exact (((hs.setAcc r.r).setFlag _).setFlag _).setNZ _ _
  | shiftAcc op => exact (hs.loadAcc _).setFlag _
  | loadC v => exact (hs.setNZ .word v).congr hs.memory
  | swapAccBytes => exact (hs.setNZ .byte _).congr hs.memory
  | pullAcc v => exact (hs.poppedW _ _).loadAcc v
  | loadX v => exact hs.loadX v
  | pullX v => exact (hs.poppedW _ _).loadX v
  | loadY v => exact hs.loadY v
  | pullY v => exact (hs.poppedW _ _).loadY v
  | loadD v => exact (hs.setNZ .word v).congr hs.memory
  | pullD => exact ((hs.poppedW .wide .word).setNZ .word _).congr hs.memory
  | pullDbr => exact ((hs.popped .wide).setNZ .byte _).congr hs.memory
  | compare w a b => exact (hs.setFlag _).setNZ w _
  | testZero v => exact hs.testZero v
  | testBits v => exact ((hs.testZero v).setFlag _).setFlag _
  | store ea w v => exact hs.store ea w v
  | modifyMem md r => exact hs.modifyMem md r
  | shiftMem op md => exact (hs.modifyMem md _).setFlag _
  | testAndWrite md r => exact (hs.testZero _).store _ _ r
  | moveByte dir dst src => exact hs.moveByte dir dst src
  | push8 v => exact hs.push8 _ v
  | push16 v => exact hs.push16 _ v
  | pushW w v => exact hs.pushW _ w v
  | call k a => exact (hs.pushReturn k).jump a
  | callLong a => exact ((hs.push8 .wide s.pbr).pushReturn .wide).jumpLong a
  | jump a => exact hs.jump a
  | jumpLong a => exact hs.jumpLong a
  | returnFromInterrupt => exact hs.returnFromInterrupt
  | brk => exact hs.enter .brk
  | cop => exact hs.enter .cop
  | done | setRun | setSp | branchIf | returnNear | returnLong => exact hs.congr hs.memory

/-- Whatever a step does keeps the invariants inside a step. -/
theorem Work.stepInv {s w : State} (h : Work s w) (hs : StepInv s) : StepInv w := by
  cases h with
  | reset => exact hs.resetEvent
  | idle => exact hs
  | interrupt k =>
    have hresumed : StepInv s.resume := hs.congr hs.memory
    exact hresumed.enter k
  | wake => exact hs.congr hs.memory
  | abort =>
    have hwithdrawn : StepInv { s with abortReq := false } := hs.congr hs.memory
    exact hwithdrawn.enter .abort
  | execute h => exact (effect_of_exec h).stepInv (hs.congr hs.memory)

theorem StepInv.pollInputs {s : State} (hs : StepInv s) : StepInv s.pollInputs := by
  rw [s.pollInputs_eq]
  exact hs.congr hs.memory

/-- Settles O8: the inputs, the step's work and its end each keep the invariants inside a step, and the end forces
SH. -/
theorem stepKeepsStateWellFormed : Obligations.StepKeepsStateWellFormed := by
  intro s t hwf h
  obtain ⟨w, hwork, hend⟩ := step_work h
  have hw : StepInv w := hwork.stepInv (s.wf_iff.mp hwf).1.pollInputs
  have ht : StepInv t := by
    obtain rfl | rfl := hend <;> exact hw.congr hw.memory
  exact t.wf_iff.mpr ⟨ht, fun he => (stackPageForcedAtEveryStepEnd s t h he).1⟩

/-! ## The reset state (R48) -/

/-- Settles O9, by evaluating the three checks on the reset state. -/
theorem resetStateIsWellFormed : Obligations.ResetStateIsWellFormed := by
  unfold Obligations.ResetStateIsWellFormed
  decide

/-- Settles O11, by evaluating each value of R48. -/
theorem resetStateHasTheSpecValues : Obligations.ResetStateHasTheSpecValues := by
  unfold Obligations.ResetStateHasTheSpecValues
  decide

end Machine
end Sys2Proof
end

section
/-! Memory (20_memory.md): what a read gives after a write, and which bytes an instruction can change. -/

namespace Sys2Proof
namespace Machine

/-- Settles O60: RAM takes the byte, every other kind of address ignores it, and no other address sees it. -/
theorem ramReadsTheLastWrite : Obligations.RamReadsTheLastWrite := fun s a k v =>
  ⟨s.readByte_writeByte_ram a v, s.writeByte_of_not_ram a v, s.readByte_writeByte_other a k v⟩

/-! ## Bytes outside a list of addresses -/

/-- Every byte outside the listed addresses reads as before. -/
def ChangesOnly (s t : State) (as : List Addr) : Prop := ∀ a, a ∉ as → t.readByte a = s.readByte a

theorem ChangesOnly.of_mem_eq {s t : State} (hmem : t.mem = s.mem) (hplat : t.platform = s.platform)
    (hdraws : t.draws = s.draws) (as : List Addr) : ChangesOnly s t as := fun a _ =>
  State.readByte_congr s t a hplat hdraws (by rw [hmem])

/-- Listed writes reach no byte but their own. -/
theorem Wrote.changesOnly {s t : State} {ws : List (Addr × Byte)} (h : Wrote s t ws) :
    ChangesOnly s t (ws.map Prod.fst) := by
  intro a ha
  have hnone : ws.reverse.lookup a = none := by
    rw [List.lookup_eq_none_iff]
    rintro ⟨b, v⟩ hbv
    have hab : a ≠ b := fun hab => ha (hab ▸ List.mem_map_of_mem (List.mem_reverse.mp hbv))
    simpa using hab
  rw [h a, hnone]

/-- The writes of a push go to the next slots of the stack (R280). -/
theorem State.map_fst_pushWrites (s : State) (k : StackRule) (bs : List Byte) :
    (s.pushWrites k bs).map Prod.fst = s.pushAddrs k bs.length := by
  rw [State.pushAddrs, List.range_eq_range', ← List.zipIdx_map_snd, List.map_map, State.pushWrites, List.map_map]
  rfl

theorem Pushed.changesOnly {s t : State} {k : StackRule} {bs : List Byte} (h : Pushed s t k bs) :
    ChangesOnly s t (s.pushAddrs k bs.length) :=
  s.map_fst_pushWrites k bs ▸ h.1.changesOnly

/-! ## The operations that store -/

section
variable (s : State)

theorem State.store_changesOnly (ea : Ea) (w : Width) (v : Word) : ChangesOnly s (s.store ea w v) (ea.addrs w) :=
  fun a => s.readByte_store_other ea w v a

theorem State.modifyMem_changesOnly (md : MemMode) (r : Word) :
    ChangesOnly s (s.modifyMem md r) ((s.ea md).addrs s.wM) :=
  s.store_changesOnly (s.ea md) s.wM r

theorem State.shiftMem_changesOnly (op : ShiftOp) (md : MemMode) :
    ChangesOnly s (s.shiftMem op md) ((s.ea md).addrs s.wM) :=
  s.modifyMem_changesOnly md _

theorem State.testAndWrite_changesOnly (md : MemMode) (r : Word) :
    ChangesOnly s (s.testAndWrite md r) ((s.ea md).addrs s.wM) :=
  (s.testZero _).store_changesOnly (s.ea md) s.wM r

theorem State.moveByte_changesOnly (dir : Word) (dst src : Byte) :
    ChangesOnly s (s.moveByte dir dst src) [joinAddr dst s.idxY] :=
  ((Wrote.refl s).writeByte rfl (joinAddr dst s.idxY) _).changesOnly

theorem State.push8_changesOnly (k : StackRule) (v : Byte) : ChangesOnly s (s.push8 k v) (s.pushAddrs k 1) :=
  ((Pushed.refl s k).push8 (by simp) rfl rfl v).changesOnly

theorem State.push16_changesOnly (k : StackRule) (v : Word) : ChangesOnly s (s.push16 k v) (s.pushAddrs k 2) :=
  ((Pushed.refl s k).push16 (by simp) rfl rfl v).changesOnly

theorem State.pushW_changesOnly (k : StackRule) (w : Width) (v : Word) :
    ChangesOnly s (s.pushW k w v) (s.pushAddrs k (byteCount w)) := by
  cases w with
  | byte => exact s.push8_changesOnly k _
  | word => exact s.push16_changesOnly k v

/-- A call pushes the return address (R285, R286). -/
theorem State.call_changesOnly (k : StackRule) (a : Word) :
    ChangesOnly s ((s.pushReturn k).jump a) (s.pushAddrs k 2) := by
  have hpushed : Pushed s (s.pushReturn k) k _ := (Pushed.refl s k).push16 (by simp) rfl rfl _
  exact (hpushed.congr (State.jump_mem _ a) (State.jump_sp _ a) (State.jump_platform _ a)
    (State.jump_draws _ a)).changesOnly

/-- A long call pushes PBR, then the return address (R287). -/
theorem State.callLong_changesOnly (a : Addr) :
    ChangesOnly s (((s.push8 .wide s.pbr).pushReturn .wide).jumpLong a) (s.pushAddrs .wide 3) := by
  have hbank : Pushed s (s.push8 .wide s.pbr) .wide _ := (Pushed.refl s .wide).push8 (by simp) rfl rfl _
  have hpushed : Pushed s ((s.push8 .wide s.pbr).pushReturn .wide) .wide _ := hbank.push16 (by simp) rfl rfl _
  exact (hpushed.congr (State.jumpLong_mem _ a) (State.jumpLong_sp _ a) (State.jumpLong_platform _ a)
    (State.jumpLong_draws _ a)).changesOnly

/-- An entry pushes PBR in native mode, the return address and P (R410). -/
theorem State.enter_changesOnly (k : IntKind) :
    ChangesOnly s (s.enter k) (s.pushAddrs .page (if s.e then 3 else 4)) := by
  obtain ⟨-, hpushed, -, -⟩ := s.enter_entered k
  have hchanges := hpushed.changesOnly
  cases he : s.e <;> simpa [he] using hchanges

end

/-! ## The instructions -/

/-- The mnemonics with a form that stores. -/
def mayStore : Mnemonic → Bool
  | .sta | .stx | .sty | .stz | .inc | .dec | .asl | .lsr | .rol | .ror | .tsb | .trb | .pha | .phx | .phy | .php
  | .phb | .phk | .phd | .pea | .pei | .per | .jsr | .jsl | .brk | .cop | .mvn | .mvp => true
  | _ => false

/-- Memory is as before after an instruction of a mnemonic that never stores. -/
theorem Effect.mem_eq {s t : State} {mn : Mnemonic} (h : Effect s mn t) : t.mem = s.mem ∨ mayStore mn = true := by
  cases h with
  | store _ _ _ hmn | modifyMem _ _ hmn | shiftMem _ _ hmn | testAndWrite _ _ hmn | moveByte _ _ _ hmn | push8 _ hmn
  | push16 _ hmn | pushW _ _ hmn => exact .inr (List.all_eq_true.mp rfl _ hmn)
  | call | callLong | brk | cop => exact .inr rfl
  | _ => simp

/-- An instruction changes no byte outside those it stores to. -/
theorem exec_changesOnly {i : Instr} {s t : State} (h : exec i s = .next t) : ChangesOnly s t (storedAddrs i s) := by
  cases i with
  | staIdpx | staSr | staDp | staIldp | staAbs | staLong | staIdpy | staIdp | staIsry | staDpx | staIldpy
    | staAbsy | staAbsx | staLongx
  | stxDp | stxAbs | stxDpy | styDp | styAbs | styDpx
  | stzDp | stzDpx | stzAbs | stzAbsx => cases h; exact s.store_changesOnly _ _ _
  | incDp | incAbs | incDpx | incAbsx | decDp | decAbs | decDpx | decAbsx =>
    cases h; exact s.modifyMem_changesOnly _ _
  | aslDp | aslAbs | aslDpx | aslAbsx | lsrDp | lsrAbs | lsrDpx | lsrAbsx
  | rolDp | rolAbs | rolDpx | rolAbsx | rorDp | rorAbs | rorDpx | rorAbsx => cases h; exact s.shiftMem_changesOnly _ _
  | tsbDp | tsbAbs | trbDp | trbAbs => cases h; exact s.testAndWrite_changesOnly _ _
  | mvn | mvp => cases h; exact s.moveByte_changesOnly _ _ _
  | php | phb | phk => cases h; exact s.push8_changesOnly _ _
  | phd | pea | pei | per => cases h; exact s.push16_changesOnly _ _
  | pha | phx | phy => cases h; exact s.pushW_changesOnly _ _ _
  | jsrAbs | jsrIndx => cases h; exact s.call_changesOnly _ _
  | jsl => cases h; exact s.callLong_changesOnly _
  | brk | cop => cases h; exact s.enter_changesOnly _
  | incAcc | decAcc | aslAcc | lsrAcc | rolAcc | rorAcc => cases h; exact .of_mem_eq rfl rfl rfl _
  | _ =>
    have heff := effect_of_exec h
    obtain ⟨-, -, -, -, -, hplat⟩ := heff.environment_eq
    have hmem := heff.mem_eq.resolve_right Bool.false_ne_true
    exact .of_mem_eq hmem hplat (exec_draws h) _

/-- Settles O50: each storing operation reaches the addresses of its operand, its stack slots or its destination, and
the other instructions leave memory as it is. -/
theorem memoryChangesOnlyWhereStored : Obligations.MemoryChangesOnlyWhereStored := fun _ _ _ h => exec_changesOnly h

end Machine
end Sys2Proof
end

section
/-! The encoding (30_encoding.md): the decoder and the encoder undo each other, every byte is an opcode, and the
length of an instruction is the one of its mode. -/

namespace Sys2Proof
open Machine

/-! ## Operand bytes and the values they make (R7, R70, R103) -/

@[simp] theorem bankOf_joinAddr (bank : Byte) (off : Word) : bankOf (joinAddr bank off) = bank :=
  BitVec.extractLsb'_append_eq_left

@[simp] theorem offsetOf_joinAddr (bank : Byte) (off : Word) : offsetOf (joinAddr bank off) = off :=
  BitVec.extractLsb'_append_eq_right

@[simp] theorem joinAddr_bankOf_offsetOf (a : Addr) : joinAddr (bankOf a) (offsetOf a) = a :=
  (BitVec.extractLsb'_append_extractLsb'_eq_extractLsb' rfl).trans BitVec.extractLsb'_eq_self

theorem wordBytes_joinBytes (lo hi : Byte) : wordBytes (joinBytes hi lo) = [lo, hi] := by
  simp [wordBytes]

theorem longBytes_joinAddr (lo hi bank : Byte) : longBytes (joinAddr bank (joinBytes hi lo)) = [lo, hi, bank] := by
  simp [longBytes]

/-- A value fits one byte when nothing is lost by keeping its low byte alone (R102). -/
theorem immediateFits_true_iff (v : Word) : immediateFits true v = true ↔ zeroExtend8 (lowByte v) = v := by
  have hlow : (zeroExtend8 (lowByte v)).toNat = v.toNat % 256 % 65536 := by simp [zeroExtend8, lowByte]
  rw [← BitVec.toNat_inj, hlow]
  simp only [immediateFits, Bool.not_true, Bool.false_or, decide_eq_true_eq]
  omega

theorem immediateBytes_true (v : Word) : immediateBytes true v = [lowByte v] := rfl

theorem immediateBytes_false (v : Word) : immediateBytes false v = wordBytes v := rfl

/-! ## What a cell of the opcode map reads -/

/-- The operand bytes `os` and the instruction a cell makes of them, each layout of R101 with its inverse: an
immediate has the width its flag selects (R102). -/
inductive Shape.Assembles (m x : Bool) : Shape → List Byte → Instr → Prop
  | plain (i : Instr) : Assembles m x (.plain i) [] i
  | byte (f : Byte → Instr) (o : Byte) : Assembles m x (.byte f) [o] (f o)
  | word (f : Word → Instr) (v : Word) : Assembles m x (.word f) (wordBytes v) (f v)
  | long (f : Addr → Instr) (al : Addr) : Assembles m x (.long f) (longBytes al) (f al)
  | immM (f : Word → Instr) (v : Word) (hv : immediateFits m v = true) :
    Assembles m x (.immM f) (immediateBytes m v) (f v)
  | immX (f : Word → Instr) (v : Word) (hv : immediateFits x v = true) :
    Assembles m x (.immX f) (immediateBytes x v) (f v)
  | banks (f : Byte → Byte → Instr) (dst src : Byte) : Assembles m x (.banks f) [dst, src] (f dst src)

theorem readImmediate_append {narrow : Bool} (f : Word → Instr) {v : Word} (rest : List Byte)
    (hv : immediateFits narrow v = true) :
    readImmediate narrow f (immediateBytes narrow v ++ rest) = .ok (f v, rest) := by
  cases narrow with
  | true => simp [immediateBytes_true, readImmediate, (immediateFits_true_iff v).mp hv]
  | false => simp [immediateBytes_false, wordBytes, readImmediate]

/-- Reading an immediate succeeds on the bytes of a value that fits, or the bytes end too early. -/
theorem readImmediate_cases (narrow : Bool) (f : Word → Instr) (bs : List Byte) :
    (∃ v rest, immediateFits narrow v = true ∧ bs = immediateBytes narrow v ++ rest
      ∧ readImmediate narrow f bs = .ok (f v, rest))
    ∨ (readImmediate narrow f bs = .error .truncated ∧ bs.length < 3) := by
  match narrow, bs with
  | _, [] => exact .inr ⟨rfl, by simp⟩
  | true, o :: rest =>
    exact .inl ⟨zeroExtend8 o, rest, by simp [immediateFits_true_iff], by simp [immediateBytes_true], rfl⟩
  | false, [_] => exact .inr ⟨rfl, by simp⟩
  | false, o1 :: o2 :: rest =>
    exact .inl ⟨joinBytes o2 o1, rest, rfl, by simp [immediateBytes_false, wordBytes_joinBytes], rfl⟩

namespace Shape

variable {m x : Bool} {sh : Shape} {os : List Byte} {i : Instr}

/-- A cell reads back the operand bytes of an instruction it makes, and leaves what follows them. -/
theorem Assembles.read_append (h : sh.Assembles m x os i) (rest : List Byte) :
    sh.read m x (os ++ rest) = .ok (i, rest) := by
  cases h with
  | plain | byte | banks => rfl
  | word f v => simp [wordBytes, Shape.read]
  | long f al => simp [longBytes, Shape.read]
  | immM f v hv => exact readImmediate_append f rest hv
  | immX f v hv => exact readImmediate_append f rest hv

/-- What reading with a cell can do: assemble the operand bytes at the head, or find fewer bytes than the longest
operand has. -/
theorem read_cases (m x : Bool) (sh : Shape) (bs : List Byte) :
    (∃ os i rest, sh.Assembles m x os i ∧ bs = os ++ rest ∧ sh.read m x bs = .ok (i, rest))
    ∨ (sh.read m x bs = .error .truncated ∧ bs.length < 3) := by
  match sh, bs with
  | .plain i, bs => exact .inl ⟨[], i, bs, .plain i, rfl, rfl⟩
  | .byte f, o :: rest => exact .inl ⟨[o], f o, rest, .byte f o, rfl, rfl⟩
  | .word f, o1 :: o2 :: rest =>
    exact .inl ⟨_, _, rest, .word f (joinBytes o2 o1), by simp [wordBytes_joinBytes], rfl⟩
  | .long f, o1 :: o2 :: o3 :: rest =>
    exact .inl ⟨_, _, rest, .long f (joinAddr o3 (joinBytes o2 o1)), by simp [longBytes_joinAddr], rfl⟩
  | .banks f, o1 :: o2 :: rest => exact .inl ⟨[o1, o2], _, rest, .banks f o1 o2, rfl, rfl⟩
  | .byte _, [] | .word _, [] | .word _, [_] | .banks _, [] | .banks _, [_]
  | .long _, [] | .long _, [_] | .long _, [_, _] => exact .inr ⟨rfl, by simp⟩
  | .immM f, bs =>
    exact (readImmediate_cases m f bs).imp_left fun ⟨v, rest, hv, hbs, hread⟩ =>
      ⟨_, _, rest, .immM f v hv, hbs, hread⟩
  | .immX f, bs =>
    exact (readImmediate_cases x f bs).imp_left fun ⟨v, rest, hv, hbs, hread⟩ =>
      ⟨_, _, rest, .immX f v hv, hbs, hread⟩

theorem assembles_of_read {bs rest : List Byte} (h : sh.read m x bs = .ok (i, rest)) :
    ∃ os, sh.Assembles m x os i ∧ bs = os ++ rest := by
  obtain ⟨os, j, rest', hasm, hbs, hread⟩ | ⟨herr, -⟩ := sh.read_cases m x bs
  · obtain ⟨rfl, rfl⟩ := Prod.mk.inj (Except.ok.inj (hread.symm.trans h))
    exact ⟨os, hasm, hbs⟩
  · cases herr.symm.trans h

theorem read_error {bs : List Byte} {err : DecodeError} (h : sh.read m x bs = .error err) :
    err = .truncated ∧ bs.length < 3 := by
  obtain ⟨os, j, rest', -, -, hread⟩ | ⟨herr, hlen⟩ := sh.read_cases m x bs
  · cases hread.symm.trans h
  · exact ⟨Except.error.inj (h.symm.trans herr), hlen⟩

/-- Whatever the cell makes is encoded with the opcode `op` and the operand bytes it was made of, and is
well-formed. -/
def MakesOpcode (sh : Shape) (op : Byte) : Prop :=
  ∀ (m x : Bool) (os : List Byte) (i : Instr), sh.Assembles m x os i → encode m x i = op :: os ∧ i.wf m x = true

end Shape

/-! ## The opcode map against the encoder (R105) -/

/-- The cell at an instruction's opcode makes the instruction of its operand bytes, and makes instructions of that
opcode alone. -/
theorem Instr.exists_cell (i : Instr) : ∃ sh, opcodeShape i.opcode = some sh
    ∧ (∀ m x, i.wf m x = true → sh.Assembles m x (i.operand.bytes m x) i) ∧ sh.MakesOpcode i.opcode := by
  cases i with
  | oraImm | andImm | eorImm | adcImm | bitImm | ldaImm | cmpImm | sbcImm =>
    refine ⟨_, by dsimp only [Instr.opcode]; rfl, fun _ _ hwf => .immM _ _ hwf, fun _ _ _ _ hasm => ?_⟩
    cases hasm with
    | immM _ _ hv => exact ⟨rfl, hv⟩
  | ldyImm | ldxImm | cpyImm | cpxImm =>
    refine ⟨_, by dsimp only [Instr.opcode]; rfl, fun _ _ hwf => .immX _ _ hwf, fun _ _ _ _ hasm => ?_⟩
    cases hasm with
    | immX _ _ hv => exact ⟨rfl, hv⟩
  | _ =>
    refine ⟨_, by dsimp only [Instr.opcode]; rfl, fun _ _ _ => by constructor, fun _ _ _ _ hasm => ?_⟩
    cases hasm
    exact ⟨rfl, rfl⟩

/-- Every byte is the opcode of an instruction (R107): of the one it stands for before zero operand bytes. -/
theorem Instr.exists_opcode_eq (op : Byte) : ∃ i : Instr, i.opcode = op := by
  have htable : ∀ op : Byte, (decodeTableWord 8 op.toNat).map Instr.opcode = some op := by decide
  obtain ⟨i, -, hi⟩ := Option.map_eq_some_iff.mp (htable op)
  exact ⟨i, hi⟩

/-- Every byte has a cell of the opcode map, and the cell makes instructions of that opcode alone (R105, R107). -/
theorem exists_cell_makesOpcode (op : Byte) : ∃ sh, opcodeShape op = some sh ∧ sh.MakesOpcode op := by
  obtain ⟨i, rfl⟩ := Instr.exists_opcode_eq op
  obtain ⟨sh, hsh, -, hop⟩ := i.exists_cell
  exact ⟨sh, hsh, hop⟩

theorem decode_cons {op : Byte} {sh : Shape} (h : opcodeShape op = some sh) (m x : Bool) (bs : List Byte) :
    decode m x (op :: bs) = sh.read m x bs := by
  rw [decode, h]

/-- Settles O1: the cell at the opcode reads back the operand bytes. -/
theorem decodeInvertsEncode : Obligations.DecodeInvertsEncode := by
  intro m x i rest hwf
  obtain ⟨sh, hsh, hasm, -⟩ := i.exists_cell
  rw [encode, List.cons_append, decode_cons hsh]
  exact (hasm m x hwf).read_append rest

/-- Settles O2: what a cell reads is the operand bytes of an instruction it makes. -/
theorem encodeInvertsDecode : Obligations.EncodeInvertsDecode := by
  intro m x bytes rest i hdec
  cases bytes with
  | nil => cases hdec
  | cons op bs =>
    obtain ⟨sh, hsh, hmakes⟩ := exists_cell_makesOpcode op
    obtain ⟨os, hasm, rfl⟩ := Shape.assembles_of_read ((decode_cons hsh m x bs).symm.trans hdec)
    obtain ⟨henc, hwf⟩ := hmakes m x os i hasm
    exact ⟨by rw [henc, List.cons_append], hwf⟩

/-- What decodes begins with its own opcode. -/
theorem opcode_of_decode {m x : Bool} {op : Byte} {bs rest : List Byte} {i : Instr}
    (h : decode m x (op :: bs) = .ok (i, rest)) : i.opcode = op := by
  obtain ⟨hbytes, -⟩ := encodeInvertsDecode m x _ rest i h
  exact (List.head_eq_of_cons_eq hbytes).symm

theorem decode_error {m x : Bool} {bytes : List Byte} {err : DecodeError} (h : decode m x bytes = .error err) :
    err = .truncated ∧ bytes.length < 4 := by
  cases bytes with
  | nil => exact ⟨(Except.error.inj h).symm, by simp⟩
  | cons op bs =>
    obtain ⟨sh, hsh⟩ := exists_opcodeShape op
    obtain ⟨herr, hlen⟩ := Shape.read_error ((decode_cons hsh m x bs).symm.trans h)
    exact ⟨herr, Nat.succ_lt_succ hlen⟩

/-- Settles O3: four bytes always decode, and what decodes begins with its own opcode. -/
theorem everyOpcodeIsAnInstruction : Obligations.EveryOpcodeIsAnInstruction := by
  refine ⟨fun m x op o1 o2 o3 => ?_, fun _ _ _ _ => decode_error⟩
  obtain ⟨⟨i, rest⟩, hdec⟩ := decode_four m x op o1 o2 o3
  exact ⟨i, rest, hdec, opcode_of_decode hdec⟩

/-! ## Lengths (R102) -/

/-- The opcodes of a mode can be read off the table of forms. -/
theorem format_iff_of_table (fmt : Format) (ops : List Byte)
    (h : formTable.all (fun r => decide (r.2.2 = fmt ↔ r.2.1 ∈ ops)) = true) (i : Instr) :
    i.operand.format = fmt ↔ i.opcode ∈ ops := by
  have hi : (i.mnemonic, i.opcode, i.operand.format) ∈ formTable := List.mem_of_getElem? (formAt_opcode i)
  simpa using List.all_eq_true.mp h _ hi

/-- PC moves past the bytes of the encoding, within its bank (R10, R30). -/
theorem toNat_advance_pc (s : State) (i : Instr) :
    (s.advance i).pc.toNat = (s.pc.toNat + (encode (s.flag .m) (s.flag .x) i).length) % 2 ^ 16 := by
  rw [length_encode, State.advance, BitVec.toNat_add, BitVec.toNat_ofNat, Nat.add_mod_mod]

/-- Settles O4: the operand's size is its mode's, case by case, and the width-dependent modes are read off the
table of forms. -/
theorem instructionLengths : Obligations.InstructionLengths := by
  refine ⟨fun m x i => ⟨length_encode m x i, ?_⟩, format_iff_of_table _ _ (by decide +kernel),
    format_iff_of_table _ _ (by decide +kernel), toNat_advance_pc⟩
  rw [Instr.length]
  cases i.operand with
  | data md => cases md <;> rfl
  | _ => rfl

/-- Settles O5: each word is decoded. -/
theorem specWordsDecode : Obligations.SpecWordsDecode := by
  unfold Obligations.SpecWordsDecode
  decide

end Sys2Proof
end

section
/-! Effective addresses (40_addressing_modes.md): words and addresses as numbers, then the address of each memory
mode. -/

namespace Sys2Proof
namespace Machine

/-! ## Words and addresses as numbers (R7, R70) -/

@[simp] theorem toNat_lowByte (v : Word) : (lowByte v).toNat = v.toNat % 256 :=
  BitVec.extractLsb'_toNat 0 8 v

@[simp] theorem toNat_highByte (v : Word) : (highByte v).toNat = v.toNat / 256 := by
  have hv := v.isLt
  rw [highByte, BitVec.extractLsb'_toNat, Nat.shiftRight_eq_div_pow]
  omega

@[simp] theorem toNat_zeroExtend8 (b : Byte) : (zeroExtend8 b).toNat = b.toNat :=
  BitVec.toNat_setWidth_of_le (by decide)

@[simp] theorem toNat_joinBytes (hi lo : Byte) : (joinBytes hi lo).toNat = lo.toNat + 256 * hi.toNat := by
  rw [joinBytes, BitVec.toNat_append, ← Nat.shiftLeft_add_eq_or_of_lt lo.isLt, Nat.shiftLeft_eq]
  omega

@[simp] theorem toNat_joinAddr (bank : Byte) (off : Word) :
    (joinAddr bank off).toNat = bank.toNat * 65536 + off.toNat := by
  rw [joinAddr, BitVec.toNat_append, ← Nat.shiftLeft_add_eq_or_of_lt off.isLt, Nat.shiftLeft_eq]

theorem lowByte_eq_iff (v : Word) (b : Byte) : lowByte v = b ↔ v.toNat % 256 = b.toNat := by
  rw [← BitVec.toNat_inj, toNat_lowByte]

theorem ofNat_add_one {w : Nat} (n : Nat) : BitVec.ofNat w n + 1 = BitVec.ofNat w (n + 1) :=
  (BitVec.ofNat_add n 1).symm

theorem ofNat_add_two {w : Nat} (n : Nat) : BitVec.ofNat w n + 2 = BitVec.ofNat w (n + 2) :=
  (BitVec.ofNat_add n 2).symm

/-- An offset that is a sum wraps at 16 bits, so it is its number's residue (R74). -/
theorem ofNat_toNat_add (v w : Word) : BitVec.ofNat 16 (v.toNat + w.toNat) = v + w := by
  rw [BitVec.ofNat_add, BitVec.ofNat_toNat, BitVec.ofNat_toNat, BitVec.setWidth_eq, BitVec.setWidth_eq]

/-! ## Index registers at their current width (R130) -/

theorem toNat_trunc_wX (s : State) (v : Word) :
    (s.wX.trunc v).toNat = if s.flag .x then v.toNat % 256 else v.toNat := by
  rw [toNat_trunc, State.wX]
  split
  · rfl
  · exact Nat.mod_eq_of_lt v.isLt

@[simp] theorem State.toNat_idxX (s : State) : s.idxX.toNat = s.xNat := toNat_trunc_wX s s.x

@[simp] theorem State.toNat_idxY (s : State) : s.idxY.toNat = s.yNat := toNat_trunc_wX s s.y

/-! ## The two increment rules (R74, R130) -/

theorem linearAt_ofNat (n : Nat) : LinearAt (.lin (BitVec.ofNat 24 n)) n := by
  refine ⟨BitVec.toNat_ofNat n 24, ?_⟩
  rw [Ea.second, ofNat_add_one, BitVec.toNat_ofNat]

theorem linearAt_lin (a : Addr) : LinearAt (.lin a) a.toNat := by
  simpa only [BitVec.ofNat_toNat, BitVec.setWidth_eq] using linearAt_ofNat a.toNat

/-- The index carries into the bank (R74, R133). -/
theorem linearAt_addIndex (a : Addr) (idx : Word) : LinearAt (.lin (addIndex a idx)) (a.toNat + idx.toNat) := by
  have hsum : addIndex a idx = BitVec.ofNat 24 (a.toNat + idx.toNat) := by
    rw [BitVec.ofNat_add, BitVec.ofNat_toNat, BitVec.ofNat_toNat, BitVec.setWidth_eq]
    rfl
  exact hsum ▸ linearAt_ofNat _

theorem bankZeroAt_ofNat (n : Nat) : BankZeroAt (.b0 (BitVec.ofNat 16 n)) n := by
  refine ⟨?_, ?_⟩
  · rw [Ea.first, toNat_joinAddr]
    simp
  · rw [Ea.second, ofNat_add_one, toNat_joinAddr]
    simp

theorem bankZeroAt_b0 (off : Word) : BankZeroAt (.b0 off) off.toNat := by
  simpa only [BitVec.ofNat_toNat, BitVec.setWidth_eq] using bankZeroAt_ofNat off.toNat

/-! ## Bytes and pointers in a bank (R9, R74) -/

/-- The byte at an offset of a bank, by its address's number (R70). -/
theorem State.toNat_readByte_joinAddr (s : State) (bank : Byte) (off : Word) :
    (s.readByte (joinAddr bank off)).toNat = s.byteAt (bank.toNat * 65536 + off.toNat) := by
  rw [State.byteAt, ← toNat_joinAddr, BitVec.ofNat_toNat, BitVec.setWidth_eq]

theorem State.toNat_readByte_bank0 (s : State) (off : Word) :
    (s.readByte (joinAddr 0 off)).toNat = s.byteAt off.toNat := by
  simpa using s.toNat_readByte_joinAddr 0 off

theorem State.toNat_readInBank (s : State) (bank : Byte) (n : Nat) :
    (s.readInBank bank (BitVec.ofNat 16 n)).toNat
      = s.byteAt (bank.toNat * 65536 + n % 2 ^ 16) + 256 * s.byteAt (bank.toNat * 65536 + (n + 1) % 2 ^ 16) := by
  rw [State.readInBank, toNat_joinBytes, ofNat_add_one, State.toNat_readByte_joinAddr,
    State.toNat_readByte_joinAddr, BitVec.toNat_ofNat, BitVec.toNat_ofNat]

theorem State.toNat_read0 (s : State) (n : Nat) : (s.read0 (BitVec.ofNat 16 n)).toNat = s.bank0Word n := by
  simpa [State.bank0Word, State.read0] using s.toNat_readInBank 0 n

theorem State.toNat_readPtr24 (s : State) (n : Nat) : (s.readPtr24 (BitVec.ofNat 16 n)).toNat = s.bank0Long n := by
  rw [State.readPtr24, toNat_joinAddr, State.toNat_read0, ofNat_add_two, State.toNat_readByte_bank0,
    BitVec.toNat_ofNat, State.bank0Long]
  omega

/-! ## The operand's offset, before D or S makes it an address -/

theorem zeroExtend8_eq_ofNat (d : Byte) : zeroExtend8 d = BitVec.ofNat 16 d.toNat := by
  rw [← toNat_zeroExtend8, BitVec.ofNat_toNat, BitVec.setWidth_eq]

/-- A word plus an index register wraps at 16 bits. -/
theorem State.add_idxX (s : State) (v : Word) : v + s.idxX = BitVec.ofNat 16 (v.toNat + s.xNat) := by
  rw [← s.toNat_idxX, ofNat_toNat_add]

theorem State.add_idxY (s : State) (v : Word) : v + s.idxY = BitVec.ofNat 16 (v.toNat + s.yNat) := by
  rw [← s.toNat_idxY, ofNat_toNat_add]

theorem State.zeroExtend8_add_idxX (s : State) (d : Byte) :
    zeroExtend8 d + s.idxX = BitVec.ofNat 16 (d.toNat + s.xNat) := by
  rw [State.add_idxX, toNat_zeroExtend8]

theorem State.zeroExtend8_add_idxY (s : State) (d : Byte) :
    zeroExtend8 d + s.idxY = BitVec.ofNat 16 (d.toNat + s.yNat) := by
  rw [State.add_idxY, toNat_zeroExtend8]

theorem State.stackRel_eq (s : State) (d : Byte) : s.stackRel d = BitVec.ofNat 16 (s.sp.toNat + d.toNat) := by
  rw [← toNat_zeroExtend8, ofNat_toNat_add, State.stackRel]

theorem State.directLong_eq (s : State) (d : Byte) : s.directLong d = BitVec.ofNat 16 (s.d.toNat + d.toNat) := by
  rw [← toNat_zeroExtend8, ofNat_toNat_add, State.directLong]

theorem State.toNat_dataAddr (s : State) (off : Word) : (s.dataAddr off).toNat = s.dbr.toNat * 65536 + off.toNat :=
  toNat_joinAddr s.dbr off

/-! ## The direct page (R140, R141) -/

theorem State.pageAligned_iff (s : State) : s.pageAligned = true ↔ s.e = true ∧ s.d.toNat % 256 = 0 := by
  rw [State.pageAligned, Bool.and_eq_true, beq_iff_eq, lowByte_eq_iff]
  rfl

/-- `DH:b` is `D + b` where DL is zero. -/
theorem State.toNat_joinBytes_highByte_d {s : State} (h : s.d.toNat % 256 = 0) (b : Byte) :
    (joinBytes (highByte s.d) b).toNat = s.d.toNat + b.toNat := by
  rw [toNat_joinBytes, toNat_highByte]
  omega

theorem State.toNat_directAddr (s : State) (n : Nat) :
    (s.directAddr (BitVec.ofNat 16 n)).toNat = s.directNat n := by
  unfold State.directAddr State.directNat
  simp only [State.pageAligned_iff]
  split
  next h =>
    rw [State.toNat_joinBytes_highByte_d h.2, toNat_lowByte, BitVec.toNat_ofNat]
    omega
  next => rw [BitVec.toNat_add, BitVec.toNat_ofNat, Nat.add_mod_mod]

theorem State.toNat_directPtrHigh (s : State) (n : Nat) :
    (s.directPtrHigh (BitVec.ofNat 16 n)).toNat = s.directHighNat n := by
  unfold State.directPtrHigh State.directHighNat
  simp only [State.pageAligned_iff]
  split
  next h =>
    rw [State.toNat_joinBytes_highByte_d h.2, toNat_lowByte, ofNat_add_one, BitVec.toNat_ofNat]
    omega
  next => rw [BitVec.toNat_add, State.toNat_directAddr]; rfl

theorem State.toNat_directPtr16 (s : State) (n : Nat) :
    (s.directPtr16 (BitVec.ofNat 16 n)).toNat = s.directPtrNat n := by
  rw [State.directPtr16, toNat_joinBytes, State.toNat_readByte_bank0, State.toNat_readByte_bank0,
    State.toNat_directAddr, State.toNat_directPtrHigh, State.directPtrNat]

/-- The model's test for U6's case is the one of R141. -/
theorem State.idpxOpen_iff (s : State) (n : Nat) : s.idpxOpen (BitVec.ofNat 16 n) = true ↔ s.pointerOpen n := by
  rw [State.idpxOpen, State.pointerOpen, Bool.and_eq_true, Bool.and_eq_true, bne_iff_ne, beq_iff_eq, and_assoc,
    Ne, lowByte_eq_iff, lowByte_eq_iff, State.toNat_directAddr]
  rfl

theorem State.toNat_idpxPtr (s : State) {n : Nat} (h : ¬ s.pointerOpen n) :
    (s.idpxPtr (BitVec.ofNat 16 n)).toNat = s.directPtrNat n := by
  rw [State.idpxPtr, if_neg (mt (s.idpxOpen_iff n).mp h), State.toNat_directPtr16]

/-! ## The modes (R132 to R151) -/

section
variable (s : State)

theorem State.linearAt_addIndex_idxX (a : Addr) : LinearAt (.lin (addIndex a s.idxX)) (a.toNat + s.xNat) :=
  s.toNat_idxX ▸ linearAt_addIndex a s.idxX

theorem State.linearAt_addIndex_idxY (a : Addr) : LinearAt (.lin (addIndex a s.idxY)) (a.toNat + s.yNat) :=
  s.toNat_idxY ▸ linearAt_addIndex a s.idxY

theorem State.linearAt_dataAddr (off : Word) :
    LinearAt (.lin (s.dataAddr off)) (s.dbr.toNat * 65536 + off.toNat) := by
  rw [← s.toNat_dataAddr]
  exact linearAt_lin _

theorem State.linearAt_dataAddr_idxX (off : Word) :
    LinearAt (.lin (addIndex (s.dataAddr off) s.idxX)) (s.dbr.toNat * 65536 + off.toNat + s.xNat) := by
  rw [← s.toNat_dataAddr]
  exact s.linearAt_addIndex_idxX _

theorem State.linearAt_dataAddr_idxY (off : Word) :
    LinearAt (.lin (addIndex (s.dataAddr off) s.idxY)) (s.dbr.toNat * 65536 + off.toNat + s.yNat) := by
  rw [← s.toNat_dataAddr]
  exact s.linearAt_addIndex_idxY _

theorem State.bankZeroAt_directAddr {off : Word} {n : Nat} (h : off = BitVec.ofNat 16 n) :
    BankZeroAt (.b0 (s.directAddr off)) (s.directNat n) := by
  rw [h, ← s.toNat_directAddr]
  exact bankZeroAt_b0 _

theorem State.bankZeroAt_stackRel (d : Byte) : BankZeroAt (.b0 (s.stackRel d)) (s.sp.toNat + d.toNat) :=
  s.stackRel_eq d ▸ bankZeroAt_ofNat _

end

/-- Settles O12: the five modes are a 24-bit address, alone or with an index added over 24 bits. -/
theorem absoluteAddresses : Obligations.AbsoluteAddresses := fun s a al =>
  ⟨s.linearAt_dataAddr a, s.linearAt_dataAddr_idxX a, s.linearAt_dataAddr_idxY a, linearAt_lin al,
    s.linearAt_addIndex_idxX al⟩

/-- Settles O13: each mode is `DirectAddr` of a 16-bit sum, and R140's value does not depend on whether the sum was
cut to 16 bits before. -/
theorem directPageAddresses : Obligations.DirectPageAddresses := fun s d =>
  ⟨s.bankZeroAt_directAddr (zeroExtend8_eq_ofNat d), s.bankZeroAt_directAddr (s.zeroExtend8_add_idxX d),
    s.bankZeroAt_directAddr (s.zeroExtend8_add_idxY d)⟩

/-- Settles O14: the pointers are R141's and `MemRead0`'s as numbers, and behind them the modes are linear. -/
theorem indirectAddresses : Obligations.IndirectAddresses := by
  intro s d
  have hptr : (s.directPtr16 (zeroExtend8 d)).toNat = s.directPtrNat d.toNat := by
    rw [zeroExtend8_eq_ofNat, State.toNat_directPtr16]
  have hptrX (h : ¬ s.pointerOpen (d.toNat + s.xNat)) :
      (s.idpxPtr (zeroExtend8 d + s.idxX)).toNat = s.directPtrNat (d.toNat + s.xNat) := by
    rw [s.zeroExtend8_add_idxX, s.toNat_idpxPtr h]
  have hlong : (s.readPtr24 (s.directLong d)).toNat = s.bank0Long (s.d.toNat + d.toNat) := by
    rw [State.directLong_eq, State.toNat_readPtr24]
  rw [← hptr, ← hlong]
  exact ⟨s.linearAt_dataAddr _, fun h => hptrX h ▸ s.linearAt_dataAddr _, s.linearAt_dataAddr_idxY _,
    linearAt_lin _, s.linearAt_addIndex_idxY _⟩

/-- Settles O15: `S + d` wraps at 16 bits in both modes, and the pointer of `(d,s),y` is read there. -/
theorem stackRelativeAddresses : Obligations.StackRelativeAddresses := by
  intro s d
  have hptr : (s.read0 (s.stackRel d)).toNat = s.bank0Word (s.sp.toNat + d.toNat) := by
    rw [State.stackRel_eq, State.toNat_read0]
  rw [← hptr]
  exact ⟨s.bankZeroAt_stackRel d, s.linearAt_dataAddr_idxY _⟩

end Machine
end Sys2Proof
end

section
/-! Loads and stores (41_load_store.md): what a load does to its register and to N and Z, and which bytes a store
leaves behind. -/

namespace Sys2Proof
namespace Machine

/-! ## An operation on the operand's value (R130, R131) -/

/-- A mnemonic that applies one operation `f` to its operand's value, immediate or in memory, has a property in all
its forms when `f` has it on the values that fit the width. -/
theorem onOperand_of_exec {mn : Mnemonic} {s : State} {w : Width} {f : Word → State} {post : Word → State → Prop}
    (himm : ∀ i v, i.mnemonic = mn → (i.operand = .immM v ∨ i.operand = .immX v) →
      exec i s = .next (f (w.trunc v)))
    (hdata : ∀ i md, i.mnemonic = mn → i.operand = .data md → exec i s = .next (f (s.operand w md)))
    (hf : ∀ v, w.trunc v = v → post v (f v)) : OnOperand mn s w fun i v => Answers i s (post v) :=
  ⟨fun i v hmn ho => ⟨_, himm i v hmn ho, hf _ (trunc_trunc w v)⟩,
    fun i md hmn ho => ⟨_, hdata i md hmn ho, hf _ (trunc_load s (s.ea md) w)⟩⟩

/-! ## Loads (R170 to R172) -/

/-- A register whose low part was replaced by `v` reads as `v` at that width (R8). -/
theorem trunc_withLow (old : Word) (w : Width) (v : Word) : w.trunc (withLow old w v) = w.trunc v := by
  cases w with
  | byte => simp only [withLow, Width.trunc, lowByte_joinBytes]
  | word => rfl

/-- A byte written to the accumulator leaves B alone (R21). -/
theorem highByte_withLow_byte (old v : Word) : highByte (withLow old .byte v) = highByte old :=
  highByte_joinBytes _ _

/-- `Acc <- v; SetNZ(v, wM)` on a value of width m. -/
theorem State.loadAcc_spec (s : State) {v : Word} (hv : s.wM.trunc v = v) :
    AccBecomes s (s.loadAcc v) v ∧ Sets s (s.loadAcc v) (nz s.wM v) := by
  refine ⟨⟨rfl, ?_, fun hbyte => ?_⟩, Sets.setNZ (s.setAcc v) s.wM v hv⟩
  · exact (trunc_withLow s.c s.wM v).trans hv
  · rw [State.loadAcc, State.setNZ_c, State.setAcc, hbyte]
    exact highByte_withLow_byte s.c v

/-- `X <- zext_16(v); SetNZ(v, wX)` on a value of width x. -/
theorem State.loadX_spec (s : State) {v : Word} (hv : s.wX.trunc v = v) :
    s.loadX v = { s with x := v, p := (s.loadX v).p } ∧ Sets s (s.loadX v) (nz s.wX v) := by
  refine ⟨?_, Sets.setNZ (s.setX v) s.wX v hv⟩
  calc s.loadX v = { s with x := s.wX.trunc v, p := (s.loadX v).p } := rfl
    _ = { s with x := v, p := (s.loadX v).p } := by rw [hv]

/-- `Y <- zext_16(v); SetNZ(v, wX)` on a value of width x. -/
theorem State.loadY_spec (s : State) {v : Word} (hv : s.wX.trunc v = v) :
    s.loadY v = { s with y := v, p := (s.loadY v).p } ∧ Sets s (s.loadY v) (nz s.wX v) := by
  refine ⟨?_, Sets.setNZ (s.setY v) s.wX v hv⟩
  calc s.loadY v = { s with y := s.wX.trunc v, p := (s.loadY v).p } := rfl
    _ = { s with y := v, p := (s.loadY v).p } := by rw [hv]

/-- Settles O16: every form is `loadAcc` of its operand's value. -/
theorem ldaLoadsTheAccumulator : Obligations.LdaLoadsTheAccumulator :=
  ⟨hasForms_of_table _ _ (by decide +kernel), fun s =>
    onOperand_of_exec (fun i => exec_lda_imm i s) (fun i => exec_lda_data i s) fun _ => s.loadAcc_spec⟩

/-- Settles O17: every form is `loadX` or `loadY` of its operand's value. -/
theorem ldxLdyLoadAnIndex : Obligations.LdxLdyLoadAnIndex :=
  ⟨hasForms_of_table _ _ (by decide +kernel), hasForms_of_table _ _ (by decide +kernel), fun s =>
    ⟨onOperand_of_exec (fun i => exec_ldx_imm i s) (fun i => exec_ldx_data i s) fun _ => s.loadX_spec,
      onOperand_of_exec (fun i => exec_ldy_imm i s) (fun i => exec_ldy_data i s) fun _ => s.loadY_spec⟩⟩

/-! ## Stores (R173 to R176) -/

/-- A store changes memory alone. -/
theorem State.store_frame (s : State) (ea : Ea) (w : Width) (v : Word) :
    s.store ea w v = { s with mem := (s.store ea w v).mem } := by
  cases w <;> rfl

/-- A store of a width depends on the value's bytes of that width alone. -/
theorem storeWrites_trunc (ea : Ea) (w : Width) (v : Word) : storeWrites ea w (w.trunc v) = storeWrites ea w v := by
  cases w with
  | byte => simp only [storeWrites, Width.trunc, lowByte_zeroExtend8]
  | word => rfl

theorem State.store_spec (s : State) (ea : Ea) (w : Width) (v : Word) :
    s.store ea w v = { s with mem := (s.store ea w v).mem } ∧ Wrote s (s.store ea w v) (storeWrites ea w v) :=
  ⟨s.store_frame ea w v, Wrote.store s ea w v⟩

/-- Storing a register as it reads at the width writes the register's own bytes (R173 to R175). -/
theorem State.store_trunc_spec (s : State) (ea : Ea) (w : Width) (v : Word) :
    s.store ea w (w.trunc v) = { s with mem := (s.store ea w (w.trunc v)).mem }
      ∧ Wrote s (s.store ea w (w.trunc v)) (storeWrites ea w v) :=
  storeWrites_trunc ea w v ▸ s.store_spec ea w (w.trunc v)

/-- Settles O18: every form is a store at its effective address, of a register as it reads at its width or of
zero. -/
theorem storesWriteMemory : Obligations.StoresWriteMemory :=
  ⟨hasForms_of_table _ _ (by decide +kernel), hasForms_of_table _ _ (by decide +kernel),
    hasForms_of_table _ _ (by decide +kernel), hasForms_of_table _ _ (by decide +kernel), fun s =>
    ⟨fun i md hmn ho => ⟨_, exec_sta_data i s md hmn ho, s.store_trunc_spec (s.ea md) s.wM s.c⟩,
      fun i md hmn ho => ⟨_, exec_stx_data i s md hmn ho, s.store_trunc_spec (s.ea md) s.wX s.x⟩,
      fun i md hmn ho => ⟨_, exec_sty_data i s md hmn ho, s.store_trunc_spec (s.ea md) s.wX s.y⟩,
      fun i md hmn ho => ⟨_, exec_stz_data i s md hmn ho, s.store_spec (s.ea md) s.wM 0⟩⟩⟩

end Machine
end Sys2Proof
end

section
/-! Arithmetic (42_arithmetic.md): sums and differences at a width, what ADC, SBC and the compares do to the
accumulator and the flags, increments and decrements, and decimal arithmetic against its law. -/

namespace Sys2Proof
namespace Machine

/-! ## Numbers at a width (R202) -/

/-- Cutting a word to a width is `wrap` of any number the word stands for. -/
theorem trunc_ofInt (w : Width) (z : Int) : w.trunc (BitVec.ofInt 16 z) = wrap w z := by
  rw [← BitVec.toNat_inj, toNat_trunc, wrap, BitVec.toNat_ofInt, BitVec.toNat_ofInt]
  cases w <;> (simp only [Width.bits]; omega)

@[simp] theorem trunc_wrap (w : Width) (z : Int) : w.trunc (wrap w z) = wrap w z := by
  rw [← trunc_ofInt, trunc_trunc]

theorem trunc_ofNat (w : Width) (n : Nat) : w.trunc (BitVec.ofNat 16 n) = wrap w n := by
  rw [← trunc_ofInt, BitVec.ofInt_natCast]

/-- Numbers that differ by a multiple of `2^(8w)` wrap to the same word. -/
theorem wrap_congr {w : Width} {y z : Int} (h : y % 2 ^ w.bits = z % 2 ^ w.bits) : wrap w y = wrap w z := by
  rw [wrap, wrap, h]

theorem ofInt_toNat (v : Word) : BitVec.ofInt 16 v.toNat = v := by
  rw [BitVec.ofInt_natCast, BitVec.ofNat_toNat, BitVec.setWidth_eq]

theorem trunc_add (w : Width) (a b : Word) : w.trunc (a + b) = wrap w (a.toNat + b.toNat) := by
  rw [← trunc_ofInt, BitVec.ofInt_add, ofInt_toNat, ofInt_toNat]

theorem trunc_sub (w : Width) (a b : Word) : w.trunc (a - b) = wrap w (a.toNat - b.toNat) := by
  rw [← trunc_ofInt, Int.sub_eq_add_neg, BitVec.ofInt_add, BitVec.ofInt_neg, ofInt_toNat, ofInt_toNat,
    BitVec.sub_eq_add_neg]

theorem toNat_lt_of_trunc {w : Width} {v : Word} (h : w.trunc v = v) : v.toNat < 2 ^ w.bits := by
  rw [← h, toNat_trunc]
  exact Nat.mod_lt _ (Nat.two_pow_pos _)

@[simp] theorem State.trunc_acc (s : State) : s.wM.trunc s.acc = s.acc := trunc_trunc s.wM s.c

/-! ## Setting several flags -/

theorem Sets.setFlag (s : State) (f : Flag) (b : Bool) : Sets s (s.setFlag f b) [(f, b)] :=
  ⟨by simp, fun g hg => by rw [State.flag_setFlag, if_neg (by simpa using hg)]⟩

/-- Flags set one group after the other, no flag twice. -/
theorem Sets.append {s t u : State} {fs gs : List (Flag × Bool)} (h : Sets s t fs) (h' : Sets t u gs)
    (hdisj : ∀ f ∈ fs.map Prod.fst, f ∉ gs.map Prod.fst) : Sets s u (fs ++ gs) := by
  obtain ⟨hset, hkept⟩ := h
  obtain ⟨hset', hkept'⟩ := h'
  refine ⟨fun fb hfb => ?_, fun f hf => ?_⟩
  · obtain hfb | hfb := List.mem_append.mp hfb
    · rw [hkept' fb.1 (hdisj fb.1 (List.mem_map_of_mem hfb)), hset fb hfb]
    · exact hset' fb hfb
  · rw [List.map_append, List.mem_append, not_or] at hf
    rw [hkept' f hf.2, hkept f hf.1]

/-! ## Compares (R193 to R195) -/

/-- A compare changes flags alone: C by the unsigned comparison, N and Z by the difference at the width. -/
theorem State.compare_spec (s : State) (w : Width) (a b : Word) :
    s.compare w a b = { s with p := (s.compare w a b).p }
      ∧ Sets s (s.compare w a b)
        ((.c, decide (b.toNat ≤ a.toNat)) :: nz w (wrap w ((a.toNat : Int) - b.toNat))) := by
  refine ⟨rfl, ?_⟩
  rw [State.compare, trunc_sub]
  exact (Sets.setFlag s .c _).append (Sets.setNZ _ w _ (trunc_wrap w _)) (by simp)

/-- Settles O22: every form is `compare` of its register and its operand's value. -/
theorem comparesSetFlagsOnly : Obligations.ComparesSetFlagsOnly :=
  ⟨hasForms_of_table _ _ (by decide +kernel), hasForms_of_table _ _ (by decide +kernel),
    hasForms_of_table _ _ (by decide +kernel), fun s =>
    ⟨onOperand_of_exec (fun i => exec_cmp_imm i s) (fun i => exec_cmp_data i s)
        fun b _ => s.compare_spec s.wM s.acc b,
      onOperand_of_exec (fun i => exec_cpx_imm i s) (fun i => exec_cpx_data i s)
        fun b _ => s.toNat_idxX ▸ s.compare_spec s.wX s.idxX b,
      onOperand_of_exec (fun i => exec_cpy_imm i s) (fun i => exec_cpy_data i s)
        fun b _ => s.toNat_idxY ▸ s.compare_spec s.wX s.idxY b⟩⟩

/-! ## Increments and decrements (R196 to R201) -/

section
variable (s : State)

theorem exec_incAcc : exec .incAcc s = .next (s.loadAcc (wrap s.wM (s.acc.toNat + 1))) :=
  congrArg (fun v => Host.Outcome.next (s.loadAcc v)) (trunc_add s.wM s.acc 1)

theorem exec_decAcc : exec .decAcc s = .next (s.loadAcc (wrap s.wM ((s.acc.toNat : Int) - 1))) :=
  congrArg (fun v => Host.Outcome.next (s.loadAcc v)) (trunc_sub s.wM s.acc 1)

theorem exec_inx : exec .inx s = .next (s.loadX (wrap s.wX (s.xNat + 1))) :=
  congrArg (fun v => Host.Outcome.next (s.loadX v)) (s.toNat_idxX ▸ trunc_add s.wX s.idxX 1)

theorem exec_dex : exec .dex s = .next (s.loadX (wrap s.wX ((s.xNat : Int) - 1))) :=
  congrArg (fun v => Host.Outcome.next (s.loadX v)) (s.toNat_idxX ▸ trunc_sub s.wX s.idxX 1)

theorem exec_iny : exec .iny s = .next (s.loadY (wrap s.wX (s.yNat + 1))) :=
  congrArg (fun v => Host.Outcome.next (s.loadY v)) (s.toNat_idxY ▸ trunc_add s.wX s.idxY 1)

theorem exec_dey : exec .dey s = .next (s.loadY (wrap s.wX ((s.yNat : Int) - 1))) :=
  congrArg (fun v => Host.Outcome.next (s.loadY v)) (s.toNat_idxY ▸ trunc_sub s.wX s.idxY 1)

/-- A result written back to memory: exactly its bytes are stored, and N and Z are set from it (R196). -/
theorem State.modifyMem_spec (md : MemMode) {r : Word} (hr : s.wM.trunc r = r) :
    s.modifyMem md r = { s with mem := (s.modifyMem md r).mem, p := (s.modifyMem md r).p }
      ∧ Wrote s (s.modifyMem md r) (storeWrites (s.ea md) s.wM r) ∧ Sets s (s.modifyMem md r) (nz s.wM r) := by
  have hflags : (s.store (s.ea md) s.wM r).p = s.p := s.store_p _ _ _
  refine ⟨?_, (Wrote.store s (s.ea md) s.wM r).congr rfl rfl rfl, ?_⟩
  · rw [State.modifyMem, s.store_frame]
    rfl
  · obtain ⟨hset, hkept⟩ := Sets.setNZ (s.store (s.ea md) s.wM r) s.wM r hr
    exact ⟨hset, fun f hf => (hkept f hf).trans (State.flag_congr _ _ hflags f)⟩

end

/-- Settles O24: each is `loadX` or `loadY` of the wrapped sum or difference. -/
theorem indexIncDecChangeByOne : Obligations.IndexIncDecChangeByOne :=
  ⟨hasForms_of_table _ _ (by decide +kernel), hasForms_of_table _ _ (by decide +kernel),
    hasForms_of_table _ _ (by decide +kernel), hasForms_of_table _ _ (by decide +kernel), fun s =>
    ⟨⟨_, exec_inx s, s.loadX_spec (trunc_wrap _ _)⟩, ⟨_, exec_iny s, s.loadY_spec (trunc_wrap _ _)⟩,
      ⟨_, exec_dex s, s.loadX_spec (trunc_wrap _ _)⟩, ⟨_, exec_dey s, s.loadY_spec (trunc_wrap _ _)⟩⟩⟩

/-- Settles O23: the accumulator forms are `loadAcc`, the memory forms `modifyMem`, of the wrapped sum or
difference. -/
theorem incDecChangeByOne : Obligations.IncDecChangeByOne := by
  refine ⟨hasForms_of_table _ _ (by decide +kernel), hasForms_of_table _ _ (by decide +kernel), fun s =>
    ⟨⟨_, exec_incAcc s, s.loadAcc_spec (trunc_wrap _ _)⟩, ⟨_, exec_decAcc s, s.loadAcc_spec (trunc_wrap _ _)⟩,
      fun i md hmn ho => ⟨_, exec_inc_data i s md hmn ho, ?inc⟩,
      fun i md hmn ho => ⟨_, exec_dec_data i s md hmn ho, ?dec⟩⟩⟩
  case inc =>
    rw [trunc_add]
    exact s.modifyMem_spec md (trunc_wrap _ _)
  case dec =>
    rw [trunc_sub]
    exact s.modifyMem_spec md (trunc_wrap _ _)

/-! ## Binary addition and subtraction (R190, R191) -/

theorem carryNat_le_one (c : Bool) : carryNat c ≤ 1 := by cases c <;> decide

theorem addBinary_eq (w : Width) (a b : Word) (cin : Bool) :
    addBinary w a b cin =
      let sum := a.toNat + b.toNat + carryNat cin
      let r := wrap w sum
      { r := r, c := decide (2 ^ w.bits ≤ sum), v := w.msb a == w.msb b && w.msb r != w.msb a } := by
  rw [addBinary, trunc_ofNat]

theorem zeroExtend8_xor_mask (b : Byte) : zeroExtend8 b ^^^ 0x00FF = zeroExtend8 (~~~b) := by
  rw [← BitVec.xor_allOnes, zeroExtend8, zeroExtend8, BitVec.setWidth_xor]
  rfl

/-- The one's complement of an operand, as a number. -/
theorem toNat_xor_mask {w : Width} {b : Word} (hb : w.trunc b = b) :
    (b ^^^ w.mask).toNat = 2 ^ w.bits - 1 - b.toNat := by
  cases w with
  | byte =>
    rw [← hb, Width.trunc, Width.mask, zeroExtend8_xor_mask, toNat_zeroExtend8, toNat_zeroExtend8, BitVec.toNat_not,
      Width.bits]
  | word =>
    have hmask : Width.mask .word = BitVec.allOnes 16 := rfl
    rw [hmask, BitVec.xor_allOnes, BitVec.toNat_not, Width.bits]

/-- The one's complement turns the sign bit over. -/
theorem msb_xor_mask (w : Width) (b : Word) : w.msb (b ^^^ w.mask) = !w.msb b := by
  have hmask : w.mask.getLsbD (w.bits - 1) = true := by cases w <;> rfl
  rw [Width.msb, Width.msb, BitVec.getLsbD_xor, hmask, Bool.xor_true]

/-- Adding the one's complement subtracts, with the carry as the absence of a borrow. -/
theorem subBinary_eq {w : Width} (a : Word) {b : Word} (cin : Bool) (hb : w.trunc b = b) :
    subBinary w a b cin =
      let less := b.toNat + (1 - carryNat cin)
      let r := wrap w ((a.toNat : Int) - less)
      { r := r, c := decide (less ≤ a.toNat), v := w.msb a != w.msb b && w.msb r != w.msb a } := by
  have hlt := toNat_lt_of_trunc hb
  have hcin := carryNat_le_one cin
  have hsum : ((a.toNat + (2 ^ w.bits - 1 - b.toNat) + carryNat cin : Nat) : Int)
      = a.toNat - (b.toNat + (1 - carryNat cin) : Nat) + (2 ^ w.bits : Nat) := by omega
  have hr : wrap w (a.toNat + (2 ^ w.bits - 1 - b.toNat) + carryNat cin : Nat)
      = wrap w (a.toNat - (b.toNat + (1 - carryNat cin) : Nat)) := by
    refine wrap_congr ?_
    rw [hsum, Nat.cast_pow, Nat.cast_ofNat, Int.add_emod_right]
  have hc : 2 ^ w.bits ≤ a.toNat + (2 ^ w.bits - 1 - b.toNat) + carryNat cin
      ↔ b.toNat + (1 - carryNat cin) ≤ a.toNat := by omega
  have hv : (w.msb a == !w.msb b) = (w.msb a != w.msb b) := by cases w.msb a <;> cases w.msb b <;> rfl
  simp only [subBinary, addBinary_eq, toNat_xor_mask hb, msb_xor_mask, hr, hc, hv]

/-! ## Packed decimal numbers (R192) -/

/-- `n` is `k` nibbles that are decimal digits, and `d` is the number they write. -/
inductive PackedBcd : Nat → Nat → Nat → Prop
  | zero : PackedBcd 0 0 0
  | digit {k n d : Nat} (h : PackedBcd k n d) {x : Nat} (hx : x ≤ 9) :
    PackedBcd (k + 1) (n + x * 16 ^ k) (d + x * 10 ^ k)

/-- The number that the `k` lowest nibbles write in decimal. -/
def decDigits (k n : Nat) : Nat := ((List.range k).map fun i => nibble n i * 10 ^ i).sum

theorem decDigits_succ (k n : Nat) : decDigits (k + 1) n = decDigits k n + nibble n k * 10 ^ k := by
  simp [decDigits, List.range_succ]

theorem nibble_add_of_lt {i k : Nat} (n x : Nat) (h : i < k) : nibble (n + x * 16 ^ k) i = nibble n i := by
  obtain ⟨j, rfl⟩ := Nat.exists_eq_add_of_lt h
  have hsplit : x * 16 ^ (i + j + 1) = 16 ^ i * (16 * (x * 16 ^ j)) := by ring
  rw [nibble, hsplit, Nat.add_mul_div_left _ _ (by positivity), Nat.add_mul_mod_self_left, nibble]

theorem nibble_add_self {k n x : Nat} (hn : n < 16 ^ k) (hx : x < 16) : nibble (n + x * 16 ^ k) k = x := by
  rw [nibble, Nat.add_mul_div_right _ _ (by positivity), Nat.div_eq_of_lt hn, Nat.zero_add, Nat.mod_eq_of_lt hx]

namespace PackedBcd

variable {k n d : Nat}

theorem lt_pow (h : PackedBcd k n d) : n < 16 ^ k := by
  induction h with
  | zero => decide
  | digit _ hx ih => rw [Nat.pow_succ]; nlinarith

theorem value_lt (h : PackedBcd k n d) : d < 10 ^ k := by
  induction h with
  | zero => decide
  | digit _ hx ih => rw [Nat.pow_succ]; nlinarith

theorem nibble_le (h : PackedBcd k n d) : ∀ i < k, nibble n i ≤ 9 := by
  induction h with
  | zero => simp
  | @digit k n d h x hx ih =>
    intro i hi
    obtain hi | rfl := Nat.lt_succ_iff_lt_or_eq.mp hi
    · rw [nibble_add_of_lt n x hi]
      exact ih i hi
    · rwa [nibble_add_self h.lt_pow (by omega)]

theorem decDigits_eq (h : PackedBcd k n d) : decDigits k n = d := by
  induction h with
  | zero => rfl
  | @digit k n d h x hx ih =>
    have hlow : decDigits k (n + x * 16 ^ k) = decDigits k n :=
      congrArg List.sum (List.map_congr_left fun i hi => by rw [nibble_add_of_lt n x (List.mem_range.mp hi)])
    rw [decDigits_succ, hlow, ih, nibble_add_self h.lt_pow (by omega)]

/-- The low nibbles of a number are packed decimal where they are digits. -/
theorem of_nibbles {k n : Nat} (h : ∀ i < k, nibble n i ≤ 9) : PackedBcd k (n % 16 ^ k) (decDigits k n) := by
  induction k with
  | zero =>
    rw [Nat.pow_zero, Nat.mod_one]
    exact zero
  | succ k ih =>
    rw [Nat.mod_pow_succ, Nat.mul_comm, decDigits_succ]
    exact (ih fun i hi => h i (by omega)).digit (h k (by omega))

/-- The decimal digits of a number, packed. -/
theorem of_digits (k n : Nat) :
    PackedBcd k ((List.range k).map fun i => n / 10 ^ i % 10 * 16 ^ i).sum (n % 10 ^ k) := by
  induction k with
  | zero => simpa [Nat.mod_one] using zero
  | succ k ih =>
    rw [List.range_succ, List.map_append, List.sum_append, List.map_singleton, List.sum_singleton, Nat.mod_pow_succ,
      Nat.mul_comm (10 ^ k)]
    exact ih.digit (by omega)

end PackedBcd

/-! ## Decimal words of a width -/

theorem lowDigits_eq_range (w : Width) : lowDigits w = List.range (topDigit w) := by cases w <;> rfl

theorem allDigits_eq_range (w : Width) : allDigits w = List.range (topDigit w + 1) := by cases w <;> rfl

theorem decModulus_eq (w : Width) : decModulus w = 10 ^ (topDigit w + 1) := by cases w <;> rfl

theorem two_pow_bits_eq (w : Width) : 2 ^ w.bits = 16 ^ (topDigit w + 1) := by cases w <;> rfl

theorem validBcd_iff (w : Width) (v : Word) : validBcd w v = true ↔ ∀ i < topDigit w + 1, nibble v.toNat i ≤ 9 := by
  simp [validBcd, allDigits_eq_range]

theorem decOf_eq (w : Width) (v : Word) : decOf w v = decDigits (topDigit w + 1) v.toNat := by
  rw [decOf, allDigits_eq_range, decDigits]

theorem decOf_lt {w : Width} {v : Word} (h : validBcd w v = true) : decOf w v < decModulus w := by
  rw [decOf_eq, decModulus_eq]
  exact (PackedBcd.of_nibbles ((validBcd_iff w v).mp h)).value_lt

/-- The word `v` holds the decimal number `d` at a width. -/
def HoldsDecimal (w : Width) (v : Word) (d : Nat) : Prop :=
  ∃ n, PackedBcd (topDigit w + 1) n d ∧ v = BitVec.ofNat 16 n

namespace HoldsDecimal

variable {w : Width} {v : Word} {d : Nat}

theorem packed (h : HoldsDecimal w v d) : PackedBcd (topDigit w + 1) v.toNat d := by
  obtain ⟨n, hn, rfl⟩ := h
  have hlt : n < 2 ^ 16 := hn.lt_pow.trans_le (by cases w <;> decide)
  rwa [BitVec.toNat_ofNat, Nat.mod_eq_of_lt hlt]

theorem validBcd_eq_true (h : HoldsDecimal w v d) : validBcd w v = true := (validBcd_iff w v).mpr h.packed.nibble_le

theorem decOf_eq (h : HoldsDecimal w v d) : decOf w v = d := (Machine.decOf_eq w v).trans h.packed.decDigits_eq

theorem trunc_eq (h : HoldsDecimal w v d) : w.trunc v = v :=
  trunc_eq_self w v (two_pow_bits_eq w ▸ h.packed.lt_pow)

end HoldsDecimal

theorem holdsDecimal_bcdOf (w : Width) (n : Nat) : HoldsDecimal w (bcdOf w n) (n % decModulus w) := by
  rw [bcdOf, allDigits_eq_range, decModulus_eq]
  exact ⟨_, PackedBcd.of_digits _ n, rfl⟩

/-! ## The candidate's digits (R192) -/

/-- A digit sum above 9 has 6 added, which leaves its decimal digit and carry in the nibble and the carry out of it. -/
def adjustedSum (t : Nat) : Nat := if 9 < t then t + 6 else t

theorem adjustedSum_digit {t : Nat} (h : t ≤ 19) :
    adjustedSum t % 16 ≤ 9 ∧ adjustedSum t % 16 + 10 * carryNat (decide (15 < adjustedSum t)) = t := by
  interval_cases t <;> decide

/-- A digit difference `t`, 16 too high, loses 6 more where it borrows. -/
def adjustedDiff (t : Nat) : Nat := if t ≤ 15 then (t + 10) % 16 else t % 16

theorem adjustedDiff_digit {t : Nat} (h : 6 ≤ t) (h' : t ≤ 25) :
    adjustedDiff t ≤ 9 ∧ adjustedDiff t + 16 = t + 10 * (1 - carryNat (decide (15 < t))) := by
  interval_cases t <;> decide

/-- One more digit added on top. -/
theorem bcdAddLow_concat (a b : Nat) (is : List Nat) (i : Nat) (c : Bool) (r : Nat) :
    bcdAddLow a b (is ++ [i]) c r =
      let low := bcdAddLow a b is c r
      let t := nibble a i + nibble b i + carryNat low.1
      (decide (15 < adjustedSum t), low.2 + adjustedSum t % 16 * 16 ^ i) := by
  induction is generalizing c r with
  | nil => rfl
  | cons j is ih => exact ih _ _

/-- One more digit subtracted on top. -/
theorem bcdSubLow_concat (a nb : Nat) (is : List Nat) (i : Nat) (c : Bool) (r : Nat) :
    bcdSubLow a nb (is ++ [i]) c r =
      let low := bcdSubLow a nb is c r
      let t := nibble a i + nibble nb i + carryNat low.1
      (decide (15 < t), low.2 + adjustedDiff t * 16 ^ i) := by
  induction is generalizing c r with
  | nil => rfl
  | cons j is ih => exact ih _ _

/-- The addition of valid digits is packed decimal, with the carry out on top. -/
theorem bcdAddLow_packed {a b k : Nat} (ha : ∀ i < k, nibble a i ≤ 9) (hb : ∀ i < k, nibble b i ≤ 9) (cin : Bool) :
    ∃ d, PackedBcd k (bcdAddLow a b (List.range k) cin 0).2 d
      ∧ d + 10 ^ k * carryNat (bcdAddLow a b (List.range k) cin 0).1
        = decDigits k a + decDigits k b + carryNat cin := by
  induction k with
  | zero => exact ⟨0, .zero, by simp [bcdAddLow, decDigits]⟩
  | succ k ih =>
    obtain ⟨d, hd, hsum⟩ := ih (fun i hi => ha i (by omega)) (fun i hi => hb i (by omega))
    rw [List.range_succ, bcdAddLow_concat, decDigits_succ, decDigits_succ, Nat.pow_succ]
    have hc := carryNat_le_one (bcdAddLow a b (List.range k) cin 0).1
    have hak := ha k (by omega)
    have hbk := hb k (by omega)
    obtain ⟨hdigit, hcarry⟩ := adjustedSum_digit
      (t := nibble a k + nibble b k + carryNat (bcdAddLow a b (List.range k) cin 0).1) (by omega)
    exact ⟨_, hd.digit hdigit, by linear_combination hsum + 10 ^ k * hcarry⟩

/-- The subtraction of valid digits is packed decimal, with the borrow taken from above; `nb` holds the complemented
digits of `b`. -/
theorem bcdSubLow_packed {a b nb k : Nat} (ha : ∀ i < k, nibble a i ≤ 9) (hb : ∀ i < k, nibble b i ≤ 9)
    (hnb : ∀ i < k, nibble nb i + nibble b i = 15) (cin : Bool) :
    ∃ d, PackedBcd k (bcdSubLow a nb (List.range k) cin 0).2 d
      ∧ d + decDigits k b + (1 - carryNat cin)
        = decDigits k a + 10 ^ k * (1 - carryNat (bcdSubLow a nb (List.range k) cin 0).1) := by
  induction k with
  | zero => exact ⟨0, .zero, by simp [bcdSubLow, decDigits]⟩
  | succ k ih =>
    obtain ⟨d, hd, hdiff⟩ :=
      ih (fun i hi => ha i (by omega)) (fun i hi => hb i (by omega)) (fun i hi => hnb i (by omega))
    rw [List.range_succ, bcdSubLow_concat, decDigits_succ, decDigits_succ, Nat.pow_succ]
    dsimp only
    generalize bcdSubLow a nb (List.range k) cin 0 = low at hd hdiff ⊢
    have hc := carryNat_le_one low.1
    have hak := ha k (by omega)
    have hbk := hb k (by omega)
    have hnbk := hnb k (by omega)
    obtain ⟨hdigit, hborrow⟩ := adjustedDiff_digit
      (t := nibble a k + nibble nb k + carryNat low.1) (by omega) (by omega)
    generalize 1 - carryNat (decide (15 < nibble a k + nibble nb k + carryNat low.1)) = borrow at hborrow ⊢
    have hplace : adjustedDiff (nibble a k + nibble nb k + carryNat low.1) + nibble b k + (1 - carryNat low.1)
        = nibble a k + 10 * borrow := by omega
    exact ⟨_, hd.digit hdigit, by linear_combination hdiff + 10 ^ k * hplace⟩

/-! ## The candidate is the serial operation on all digits (R192) -/

/-- A number is at least `j` at a place when the digit there is. -/
theorem mul_le_place_iff {low m : Nat} (h : low < m) (j x : Nat) : j * m ≤ low + x * m ↔ j ≤ x := by
  have hm : 0 < m := by omega
  rw [← Nat.le_div_iff_mul_le hm, Nat.add_mul_div_right _ _ hm, Nat.div_eq_of_lt h, Nat.zero_add]

/-- Cutting a number above the nibble at a place cuts what stands at the place to a nibble. -/
theorem place_mod {low m : Nat} (h : low < m) (x : Nat) : (low + x * m) % (16 * m) = low + x % 16 * m := by
  have hm : 0 < m := by omega
  rw [Nat.mul_comm 16, Nat.mod_mul, Nat.add_mul_mod_self_right, Nat.mod_eq_of_lt h, Nat.add_mul_div_right _ _ hm,
    Nat.div_eq_of_lt h, Nat.zero_add, Nat.mul_comm m]

theorem trunc_ofNat_eq_mod (w : Width) (n : Nat) : w.trunc (BitVec.ofNat 16 n) = BitVec.ofNat 16 (n % 2 ^ w.bits) := by
  rw [trunc_ofNat, wrap, ← BitVec.ofInt_natCast, Int.natCast_mod, Nat.cast_pow, Nat.cast_ofNat]

/-- The test on the whole number sees whether the digit at the top place is above 9. -/
theorem adjustedSum_place {low m : Nat} (h : low < m) (t : Nat) :
    (if 10 * m ≤ low + t * m then low + t * m + 6 * m else low + t * m) = low + adjustedSum t * m := by
  simp only [mul_le_place_iff h]
  by_cases ht : 10 ≤ t
  · rw [if_pos ht, adjustedSum, if_pos (by omega), Nat.add_mul, Nat.add_assoc]
  · rw [if_neg ht, adjustedSum, if_neg (by omega)]

/-- The test on the whole number sees whether the digit at the top place borrows. -/
theorem adjustedDiff_place {low m : Nat} (h : low < m) (t : Nat) :
    (if 16 * m ≤ low + t * m then low + t * m else low + t * m + 16 * m - 6 * m) % (16 * m)
      = low + adjustedDiff t * m := by
  simp only [mul_le_place_iff h]
  by_cases ht : 16 ≤ t
  · rw [if_pos ht, place_mod h, adjustedDiff, if_neg (by omega)]
  · have hraise : low + t * m + 16 * m - 6 * m = low + (t + 10) * m := by
      rw [Nat.add_mul]
      omega
    rw [if_neg ht, hraise, place_mod h, adjustedDiff, if_pos (by omega)]

/-- Adjusting the top digit in place is adding it like the others. -/
theorem bcdAddCandidate_eq {w : Width} {a b : Word} {cin : Bool}
    (hlow : (bcdAddLow a.toNat b.toNat (lowDigits w) cin 0).2 < 16 ^ topDigit w) :
    (bcdAddCandidate w a b cin).r = BitVec.ofNat 16 (bcdAddLow a.toNat b.toNat (allDigits w) cin 0).2
      ∧ (bcdAddCandidate w a b cin).c = (bcdAddLow a.toNat b.toNat (allDigits w) cin 0).1 := by
  rw [bcdAddCandidate, bcdTop]
  dsimp only
  rw [adjustedSum_place hlow, trunc_ofNat_eq_mod, two_pow_bits_eq, Nat.pow_succ', place_mod hlow, allDigits,
    bcdAddLow_concat]
  exact ⟨rfl, decide_eq_decide.mpr (mul_le_place_iff hlow 16 _)⟩

/-- Adjusting the top digit in place is subtracting it like the others. -/
theorem bcdSubCandidate_eq {w : Width} {a b : Word} {cin : Bool}
    (hlow : (bcdSubLow a.toNat (b ^^^ w.mask).toNat (lowDigits w) cin 0).2 < 16 ^ topDigit w) :
    (bcdSubCandidate w a b cin).r
        = BitVec.ofNat 16 (bcdSubLow a.toNat (b ^^^ w.mask).toNat (allDigits w) cin 0).2
      ∧ (bcdSubCandidate w a b cin).c = (bcdSubLow a.toNat (b ^^^ w.mask).toNat (allDigits w) cin 0).1 := by
  rw [bcdSubCandidate, bcdTop]
  dsimp only
  rw [trunc_ofNat_eq_mod, two_pow_bits_eq, Nat.pow_succ', adjustedDiff_place hlow, allDigits, bcdSubLow_concat]
  exact ⟨rfl, decide_eq_decide.mpr (mul_le_place_iff hlow 16 _)⟩

/-! ## The law on valid operands (R192) -/

/-- A decimal sum's digits and carry are those of its residue and of the comparison with the modulus. -/
theorem sum_digits {d k s : Nat} {c : Bool} (hd : d < k) (h : d + k * carryNat c = s) :
    d = s % k ∧ c = decide (k ≤ s) := by
  cases c with
  | false =>
    obtain rfl : d = s := h
    exact ⟨(Nat.mod_eq_of_lt hd).symm, (decide_eq_false hd.not_ge).symm⟩
  | true =>
    obtain rfl : d + k = s := by simpa [carryNat] using h
    exact ⟨by rw [Nat.add_mod_right, Nat.mod_eq_of_lt hd], (decide_eq_true (Nat.le_add_left k d)).symm⟩

/-- A decimal difference's digits and missing borrow, likewise. -/
theorem diff_digits {d k a less : Nat} {c : Bool} (hd : d < k) (h : d + less = a + k * (1 - carryNat c)) :
    d = (a + k - less) % k ∧ c = decide (less ≤ a) := by
  cases c with
  | false =>
    have hborrowed : d + less = a + k := by simpa [carryNat] using h
    have hraised : a + k - less = d := by omega
    have hless : ¬ less ≤ a := by omega
    exact ⟨by rw [hraised, Nat.mod_eq_of_lt hd], (decide_eq_false hless).symm⟩
  | true =>
    have hexact : d + less = a := by simpa [carryNat] using h
    have hraised : a + k - less = d + k := by omega
    have hless : less ≤ a := by omega
    exact ⟨by rw [hraised, Nat.add_mod_right, Nat.mod_eq_of_lt hd], (decide_eq_true hless).symm⟩

/-- Under either choice, a decimal addition of valid operands gives the sum's digits and carry. -/
theorem bcdAdd_law (choice : BcdChoice) {w : Width} {a b : Word} (cin : Bool) (ha : validBcd w a = true)
    (hb : validBcd w b = true) :
    HoldsDecimal w (bcdAdd choice w a b cin).r ((decOf w a + decOf w b + carryNat cin) % decModulus w)
      ∧ (bcdAdd choice w a b cin).c = decide (decModulus w ≤ decOf w a + decOf w b + carryNat cin) := by
  cases choice with
  | candidate =>
    have hna := (validBcd_iff w a).mp ha
    have hnb := (validBcd_iff w b).mp hb
    obtain ⟨_, hlow, -⟩ := bcdAddLow_packed (fun i (hi : i < topDigit w) => hna i (by omega))
      (fun i hi => hnb i (by omega)) cin
    obtain ⟨d, hd, hsum⟩ := bcdAddLow_packed hna hnb cin
    rw [← lowDigits_eq_range] at hlow
    obtain ⟨hr, hc⟩ := bcdAddCandidate_eq hlow.lt_pow
    rw [← decOf_eq, ← decOf_eq, ← decModulus_eq] at hsum
    obtain ⟨hdigits, hcarry⟩ := sum_digits (decModulus_eq w ▸ hd.value_lt) hsum
    rw [bcdAdd, hr, hc, allDigits_eq_range, ← hdigits]
    exact ⟨⟨_, hd, rfl⟩, hcarry⟩
  | uninterpreted =>
    rw [bcdAdd, bcdOpen, ha, hb, ← Nat.mod_mod]
    exact ⟨holdsDecimal_bcdOf w _, rfl⟩

/-- The one's complement complements each nibble of the width. -/
theorem nibble_xor_mask (w : Width) (b : Word) :
    ∀ i < topDigit w + 1, nibble (b ^^^ w.mask).toNat i + nibble b.toNat i = 15 := by
  intro i hi
  have hmask : nibble w.mask.toNat i = 15 := by
    revert i
    cases w <;> decide
  have hxor : nibble (b ^^^ w.mask).toNat i = nibble b.toNat i ^^^ nibble w.mask.toNat i := by
    have hpow : 16 ^ i = 2 ^ (4 * i) := by rw [Nat.pow_mul]
    rw [BitVec.toNat_xor, nibble, nibble, nibble, hpow, Nat.xor_div_two_pow]
    exact Nat.xor_mod_two_pow (n := 4)
  have hflip : ∀ x < 16, (x ^^^ 15) + x = 15 := by decide
  rw [hxor, hmask]
  exact hflip _ (Nat.mod_lt _ (by decide))

/-- Under either choice, a decimal subtraction of valid operands gives the difference's digits and the absence of a
borrow. -/
theorem bcdSub_law (choice : BcdChoice) {w : Width} {a b : Word} (cin : Bool) (ha : validBcd w a = true)
    (hb : validBcd w b = true) :
    HoldsDecimal w (bcdSub choice w a b cin).r
        ((decOf w a + decModulus w - (decOf w b + (1 - carryNat cin))) % decModulus w)
      ∧ (bcdSub choice w a b cin).c = decide (decOf w b + (1 - carryNat cin) ≤ decOf w a) := by
  cases choice with
  | candidate =>
    have hna := (validBcd_iff w a).mp ha
    have hnb := (validBcd_iff w b).mp hb
    have hcompl := nibble_xor_mask w b
    obtain ⟨_, hlow, -⟩ := bcdSubLow_packed (fun i (hi : i < topDigit w) => hna i (by omega))
      (fun i hi => hnb i (by omega)) (fun i hi => hcompl i (by omega)) cin
    obtain ⟨d, hd, hdiff⟩ := bcdSubLow_packed hna hnb hcompl cin
    rw [← lowDigits_eq_range] at hlow
    obtain ⟨hr, hc⟩ := bcdSubCandidate_eq hlow.lt_pow
    rw [← decOf_eq, ← decOf_eq, ← decModulus_eq, Nat.add_assoc] at hdiff
    obtain ⟨hdigits, hborrow⟩ := diff_digits (decModulus_eq w ▸ hd.value_lt) hdiff
    rw [bcdSub, hr, hc, allDigits_eq_range, ← hdigits]
    exact ⟨⟨_, hd, rfl⟩, hborrow⟩
  | uninterpreted =>
    rw [bcdSub, bcdOpen, ha, hb, ← Nat.mod_mod]
    exact ⟨holdsDecimal_bcdOf w _, rfl⟩

/-- The law's difference is the integer difference modulo the modulus. -/
theorem natCast_diff_mod {a k b c : Nat} (hb : b < k) (hc : c ≤ 1) :
    (((a + k - (b + (1 - c))) % k : Nat) : Int) = ((a : Int) - b - (1 - c)) % k := by
  have hdiff : ((a + k - (b + (1 - c)) : Nat) : Int) = (a : Int) - b - (1 - c) + k := by omega
  rw [Int.natCast_mod, hdiff, Int.add_emod_right]

theorem ten_pow_bits_eq (w : Width) : 10 ^ (w.bits / 4) = decModulus w := by cases w <;> rfl

/-- Settles O21: on valid operands both choices give R192's digits and carry. -/
theorem decimalArithmeticObeysTheLaw : Obligations.DecimalArithmeticObeysTheLaw := by
  intro choice w a b cin ha hb
  obtain ⟨hsum, hcarry⟩ := bcdAdd_law choice cin ha hb
  obtain ⟨hdiff, hborrow⟩ := bcdSub_law choice cin ha hb
  have hmod : (10 : Int) ^ (w.bits / 4) = (decModulus w : Nat) := by
    rw [← ten_pow_bits_eq, Nat.cast_pow, Nat.cast_ofNat]
  rw [ten_pow_bits_eq, hmod, hsum.decOf_eq, hdiff.decOf_eq, hcarry, hborrow,
    natCast_diff_mod (decOf_lt hb) (carryNat_le_one cin)]
  exact ⟨⟨hsum.validBcd_eq_true, rfl, decide_eq_true_iff⟩, hdiff.validBcd_eq_true, rfl, decide_eq_true_iff⟩

/-! ## Addition and subtraction (R190, R191) -/

theorem trunc_bcdOpen {valid : Bool} {law : Word × Bool} (free : ArithResult) {w : Width} (h : w.trunc law.1 = law.1) :
    w.trunc (bcdOpen valid law free w).r = (bcdOpen valid law free w).r := by
  cases valid with
  | true => exact h
  | false => exact trunc_trunc w free.r

/-- Decimal results have the width of the operation, valid operands or not. -/
theorem trunc_bcdAdd (choice : BcdChoice) (w : Width) (a b : Word) (cin : Bool) :
    w.trunc (bcdAdd choice w a b cin).r = (bcdAdd choice w a b cin).r := by
  cases choice with
  | candidate => exact trunc_trunc w _
  | uninterpreted => exact trunc_bcdOpen _ (holdsDecimal_bcdOf w _).trunc_eq

theorem trunc_bcdSub (choice : BcdChoice) (w : Width) (a b : Word) (cin : Bool) :
    w.trunc (bcdSub choice w a b cin).r = (bcdSub choice w a b cin).r := by
  cases choice with
  | candidate => exact trunc_trunc w _
  | uninterpreted => exact trunc_bcdOpen _ (holdsDecimal_bcdOf w _).trunc_eq

/-- `P.C <- c; P.V <- v; SetNZ(r, wM); Acc <- r` on a result of width m. -/
theorem State.putArith_spec (s : State) {res : ArithResult} (h : s.wM.trunc res.r = res.r) :
    AccBecomes s (s.putArith res) res.r ∧ Sets s (s.putArith res) ([(.c, res.c), (.v, res.v)] ++ nz s.wM res.r) := by
  obtain ⟨⟨-, hacc, hB⟩, -⟩ := s.loadAcc_spec h
  refine ⟨⟨rfl, hacc, hB⟩, ?_⟩
  have hcv : Sets s (((s.setAcc res.r).setFlag .c res.c).setFlag .v res.v) [(.c, res.c), (.v, res.v)] :=
    (Sets.setFlag (s.setAcc res.r) .c res.c).append (Sets.setFlag _ .v res.v) (by simp)
  exact hcv.append (Sets.setNZ _ s.wM res.r h) (by simp [nz])

/-- Settles O19: every form is `putArith` of the sum of its operand's value, binary or decimal by P.D. -/
theorem adcAddsWithCarry : Obligations.AdcAddsWithCarry := by
  refine ⟨hasForms_of_table _ _ (by decide +kernel), fun s =>
    onOperand_of_exec (f := fun b => s.putArith (s.addResult b)) (fun i => exec_adc_imm i s)
      (fun i => exec_adc_data i s) fun b _ =>
      ⟨fun hd => ?binary, fun hd => ?decimal⟩⟩
  case binary =>
    rw [State.addResult, hd, addBinary_eq]
    exact s.putArith_spec (trunc_wrap s.wM _)
  case decimal =>
    rw [State.addResult, hd]
    exact s.putArith_spec (trunc_bcdAdd _ _ _ _ _)

/-- Settles O20: every form is `putArith` of the difference with its operand's value, binary or decimal by P.D. -/
theorem sbcSubtractsWithBorrow : Obligations.SbcSubtractsWithBorrow := by
  refine ⟨hasForms_of_table _ _ (by decide +kernel), fun s =>
    onOperand_of_exec (f := fun b => s.putArith (s.subResult b)) (fun i => exec_sbc_imm i s)
      (fun i => exec_sbc_data i s) fun b hb =>
      ⟨fun hd => ?binary, fun hd => ?decimal⟩⟩
  case binary =>
    rw [State.subResult, hd, subBinary_eq s.acc (s.flag .c) hb]
    exact s.putArith_spec (trunc_wrap s.wM _)
  case decimal =>
    rw [State.subResult, hd]
    exact s.putArith_spec (trunc_bcdSub _ _ _ _ _)

end Machine
end Sys2Proof
end

section
/-! Bitwise instructions (43_bitwise.md): AND, ORA and EOR on the accumulator, and what BIT, TSB and TRB make of the
flags and the operand. -/

namespace Sys2Proof
namespace Machine

/-! ## Bits at a width, flags behind a store -/

theorem trunc_and (w : Width) (a b : Word) : w.trunc (a &&& b) = w.trunc a &&& w.trunc b := by
  cases w with
  | byte => simp only [Width.trunc, zeroExtend8, lowByte, BitVec.extractLsb'_and, BitVec.setWidth_and]
  | word => rfl

theorem trunc_or (w : Width) (a b : Word) : w.trunc (a ||| b) = w.trunc a ||| w.trunc b := by
  cases w with
  | byte => simp only [Width.trunc, zeroExtend8, lowByte, BitVec.extractLsb'_or, BitVec.setWidth_or]
  | word => rfl

theorem trunc_xor (w : Width) (a b : Word) : w.trunc (a ^^^ b) = w.trunc a ^^^ w.trunc b := by
  cases w with
  | byte => simp only [Width.trunc, zeroExtend8, lowByte, BitVec.extractLsb'_xor, BitVec.setWidth_xor]
  | word => rfl

/-- A bit of a word, read off the number. -/
theorem getLsbD_eq_decide (v : Word) (k : Nat) : v.getLsbD k = decide (v.toNat / 2 ^ k % 2 = 1) :=
  Nat.testBit_eq_decide_div_mod_eq

/-- `Sets` depends on P alone. -/
theorem Sets.congr {s t u : State} {fs : List (Flag × Bool)} (h : Sets s t fs) (hp : u.p = t.p) : Sets s u fs := by
  obtain ⟨hset, hkept⟩ := h
  exact ⟨fun fb hfb => (u.flag_congr t hp fb.1).trans (hset fb hfb),
    fun f hf => (u.flag_congr t hp f).trans (hkept f hf)⟩

section
variable (s : State)

/-! ## AND, ORA and EOR (R220 to R222) -/

/-- `Acc <- op(Acc, b); SetNZ(Acc, wM)` for an operation on bits, which commutes with cutting to a width. -/
theorem State.loadAcc_bitwise_spec {op : Word → Word → Word}
    (hop : ∀ w a b, Width.trunc w (op a b) = op (w.trunc a) (w.trunc b)) {b : Word} (hb : s.wM.trunc b = b) :
    AccBecomes s (s.loadAcc (op s.acc b)) (op s.acc b)
      ∧ Sets s (s.loadAcc (op s.acc b)) (nz s.wM (op s.acc b)) :=
  s.loadAcc_spec (by rw [hop, s.trunc_acc, hb])

/-! ## The tests of BIT, TSB and TRB (R223 to R225) -/

/-- Whether the accumulator and an operand of its width have no bit in common. -/
theorem State.isZero_acc_and {b : Word} (hb : s.wM.trunc b = b) :
    isZero s.wM (s.acc &&& b) = decide (s.acc &&& b = 0) := by
  rw [isZero, trunc_and, s.trunc_acc, hb]
  rfl

/-- BIT with an immediate. -/
theorem exec_bit_imm (v : Word) : exec (.bitImm v) s = .next (s.testZero (s.wM.trunc v)) := rfl

/-- The test changes Z alone. -/
theorem State.testZero_spec {b : Word} (hb : s.wM.trunc b = b) :
    s.testZero b = { s with p := (s.testZero b).p } ∧ Sets s (s.testZero b) [(.z, decide (s.acc &&& b = 0))] :=
  ⟨rfl, s.isZero_acc_and hb ▸ Sets.setFlag s .z _⟩

/-- The test of a memory operand also copies its two top bits to N and V (R223). -/
theorem State.testBits_spec {b : Word} (hb : s.wM.trunc b = b) :
    s.testBits b = { s with p := (s.testBits b).p }
      ∧ Sets s (s.testBits b) [(.z, decide (s.acc &&& b = 0)), (.n, decide (b.toNat / 2 ^ (s.wM.bits - 1) % 2 = 1)),
        (.v, decide (b.toNat / 2 ^ (s.wM.bits - 2) % 2 = 1))] := by
  refine ⟨rfl, ?_⟩
  obtain ⟨-, hz⟩ := s.testZero_spec hb
  rw [State.testBits, Width.msb, getLsbD_eq_decide, getLsbD_eq_decide]
  exact (hz.append (Sets.setFlag _ .n _) (by simp)).append (Sets.setFlag _ .v _) (by simp)

/-- The operand is tested, then exactly the bytes of the update are stored over it (R224, R225). -/
theorem State.testAndWrite_spec (md : MemMode) (r : Word) :
    s.testAndWrite md r = { s with mem := (s.testAndWrite md r).mem, p := (s.testAndWrite md r).p }
      ∧ Wrote s (s.testAndWrite md r) (storeWrites (s.ea md) s.wM r)
      ∧ Sets s (s.testAndWrite md r) [(.z, decide (s.acc &&& s.load (s.ea md) s.wM = 0))] := by
  obtain ⟨-, hz⟩ := s.testZero_spec (trunc_load s (s.ea md) s.wM)
  refine ⟨?_, Wrote.store (s.testZero _) (s.ea md) s.wM r, hz.congr (State.store_p _ _ _ _)⟩
  rw [State.testAndWrite, State.store_frame]
  rfl

end

/-- Settles O25: every form is `loadAcc` of the accumulator combined with its operand's value. -/
theorem andOraEorCombineBits : Obligations.AndOraEorCombineBits :=
  ⟨hasForms_of_table _ _ (by decide +kernel), hasForms_of_table _ _ (by decide +kernel),
    hasForms_of_table _ _ (by decide +kernel), fun s =>
    ⟨onOperand_of_exec (fun i => exec_and_imm i s) (fun i => exec_and_data i s)
        fun _ => s.loadAcc_bitwise_spec trunc_and,
      onOperand_of_exec (fun i => exec_ora_imm i s) (fun i => exec_ora_data i s)
        fun _ => s.loadAcc_bitwise_spec trunc_or,
      onOperand_of_exec (fun i => exec_eor_imm i s) (fun i => exec_eor_data i s)
        fun _ => s.loadAcc_bitwise_spec trunc_xor⟩⟩

/-- Settles O26: the immediate form is `testZero`, the memory forms are `testBits`, of the operand's value. -/
theorem bitTestsMemory : Obligations.BitTestsMemory :=
  ⟨hasForms_of_table _ _ (by decide +kernel), fun s =>
    ⟨fun v => ⟨_, exec_bit_imm s v, s.testZero_spec (trunc_trunc s.wM v)⟩,
      fun i md hmn ho => ⟨_, exec_bit_data i s md hmn ho, s.testBits_spec (trunc_load s (s.ea md) s.wM)⟩⟩⟩

/-- Settles O27: every form is `testAndWrite` of its update of the operand. -/
theorem tsbTrbTestThenWrite : Obligations.TsbTrbTestThenWrite :=
  ⟨hasForms_of_table _ _ (by decide +kernel), hasForms_of_table _ _ (by decide +kernel), fun s =>
    ⟨fun i md hmn ho => ⟨_, exec_tsb_data i s md hmn ho, s.testAndWrite_spec md _⟩,
      fun i md hmn ho => ⟨_, exec_trb_data i s md hmn ho, s.testAndWrite_spec md _⟩⟩⟩

end Machine
end Sys2Proof
end

section
/-! Shifts and rotates (44_shift_rotate.md): the one-bit moves on words are the moves on numbers, and what ASL, LSR,
ROL and ROR make of the accumulator, a memory operand and the flags. -/

namespace Sys2Proof
namespace Machine

/-! ## Moving a word by one bit (R240 to R243) -/

/-- Moved left, the carry comes in at bit 0. -/
theorem shiftLeft_or_carry (v : Word) (cin : Bool) :
    v <<< 1 ||| BitVec.ofNat 16 (carryNat cin) = BitVec.ofNat 16 (2 * v.toNat + carryNat cin) := by
  have hcin : carryNat cin < 2 ^ 1 := Nat.lt_succ_of_le (carryNat_le_one cin)
  calc v <<< 1 ||| BitVec.ofNat 16 (carryNat cin)
      = BitVec.ofNat 16 (v.toNat <<< 1 ||| carryNat cin) := BitVec.ofNat_or.symm
    _ = BitVec.ofNat 16 (2 * v.toNat + carryNat cin) := by
      rw [← Nat.shiftLeft_add_eq_or_of_lt hcin, Nat.shiftLeft_eq, Nat.mul_comm, Nat.pow_one]

/-- Moved right, the carry comes in at the top bit of the width. -/
theorem ushiftRight_or_topBit {w : Width} {v : Word} (hv : v.toNat < 2 ^ w.bits) (cin : Bool) :
    v >>> 1 ||| topBit w cin = BitVec.ofNat 16 (v.toNat / 2 + carryNat cin * 2 ^ (w.bits - 1)) := by
  have hshift : v >>> 1 = BitVec.ofNat 16 (v.toNat / 2) := by
    rw [← BitVec.toNat_inj, BitVec.toNat_ushiftRight, BitVec.toNat_ofNat, Nat.shiftRight_one]
    exact (Nat.mod_eq_of_lt (by omega)).symm
  have hlow : v.toNat / 2 < 2 ^ (w.bits - 1) := by
    cases w <;> (simp only [Width.bits] at hv ⊢; omega)
  rw [hshift, topBit, ← BitVec.ofNat_or, Nat.or_comm, Nat.mul_comm, ← Nat.two_pow_add_eq_or_of_lt hlow, Nat.add_comm]

/-- The word an operand becomes, by the move on numbers. -/
def shiftedWord (op : ShiftOp) (w : Width) (cin : Bool) (v : Word) : Word :=
  BitVec.ofNat 16 (shiftedNat op w.bits (carryNat cin) v.toNat).1

/-- The carry an operand leaves, by the move on numbers. -/
def shiftedCarry (op : ShiftOp) (w : Width) (cin : Bool) (v : Word) : Bool :=
  decide ((shiftedNat op w.bits (carryNat cin) v.toNat).2 = 1)

/-- The zero a shift brings in is a rotate's carry 0 (R240, R241). -/
theorem shiftResult_asl (w : Width) (cin : Bool) (v : Word) :
    shiftResult .asl w cin v = shiftResult .rol w false v := by
  simp [shiftResult, carryNat]

theorem shiftResult_lsr (w : Width) (cin : Bool) (v : Word) :
    shiftResult .lsr w cin v = shiftResult .ror w false v := by
  simp [shiftResult, topBit, carryNat]

theorem shiftedNat_lsr (bits cin v : Nat) : shiftedNat .lsr bits cin v = shiftedNat .ror bits 0 v := by
  simp [shiftedNat]

theorem shiftResult_rol (w : Width) (cin : Bool) (v : Word) :
    shiftResult .rol w cin v = (shiftedWord .rol w cin v, shiftedCarry .rol w cin v) := by
  rw [shiftResult, shiftLeft_or_carry, trunc_ofNat_eq_mod, Width.msb, getLsbD_eq_decide]
  rfl

theorem shiftResult_ror {w : Width} {v : Word} (hv : v.toNat < 2 ^ w.bits) (cin : Bool) :
    shiftResult .ror w cin v = (shiftedWord .ror w cin v, shiftedCarry .ror w cin v) := by
  rw [shiftResult, ushiftRight_or_topBit hv, getLsbD_eq_decide, Nat.pow_zero, Nat.div_one]
  rfl

/-- The model's result and carry are those of the move on numbers. -/
theorem shiftResult_eq {w : Width} {v : Word} (hv : v.toNat < 2 ^ w.bits) (op : ShiftOp) (cin : Bool) :
    shiftResult op w cin v = (shiftedWord op w cin v, shiftedCarry op w cin v) := by
  cases op with
  | asl => exact (shiftResult_asl w cin v).trans (shiftResult_rol w false v)
  | lsr =>
    rw [shiftedWord, shiftedCarry, shiftResult_lsr, shiftedNat_lsr]
    exact shiftResult_ror hv false
  | rol => exact shiftResult_rol w cin v
  | ror => exact shiftResult_ror hv cin

/-- The moved number fits the width. -/
theorem shiftedNat_fst_lt {w : Width} {v : Nat} (hv : v < 2 ^ w.bits) (op : ShiftOp) (cin : Bool) :
    (shiftedNat op w.bits (carryNat cin) v).1 < 2 ^ w.bits := by
  have hcin := carryNat_le_one cin
  cases op with
  | asl | rol => exact Nat.mod_lt _ (Nat.two_pow_pos _)
  | lsr => exact (Nat.div_le_self v 2).trans_lt hv
  | ror => cases w <;> (simp only [shiftedNat, Width.bits] at hv ⊢; omega)

/-- So storing the moved word at the width loses nothing. -/
theorem trunc_shiftedWord {w : Width} {v : Word} (hv : v.toNat < 2 ^ w.bits) (op : ShiftOp) (cin : Bool) :
    w.trunc (shiftedWord op w cin v) = shiftedWord op w cin v := by
  rw [shiftedWord, trunc_ofNat_eq_mod, Nat.mod_eq_of_lt (shiftedNat_fst_lt hv op cin)]

/-! ## The accumulator, the memory operand and the flags (R240 to R244) -/

/-- One more flag set after the others. -/
theorem Sets.setFlag_cons {s t : State} {fs : List (Flag × Bool)} (h : Sets s t fs) {f : Flag}
    (hf : f ∉ fs.map Prod.fst) (b : Bool) : Sets s (t.setFlag f b) ((f, b) :: fs) := by
  obtain ⟨hset, hkept⟩ := h.append (Sets.setFlag t f b) fun g hg hgf =>
    hf ((List.mem_singleton.mp hgf : g = f) ▸ hg)
  exact ⟨fun fb hfb => hset fb (by simpa [or_comm] using hfb), fun g hg => hkept g (by simpa [or_comm] using hg)⟩

section
variable (s : State) (op : ShiftOp)

/-- With `P.M = 1` the bit that leaves A goes to C, not into B (R240). -/
theorem State.shiftAcc_spec :
    AccBecomes s (s.shiftAcc op) (shiftedWord op s.wM (s.flag .c) s.acc)
      ∧ Sets s (s.shiftAcc op) ((.c, shiftedCarry op s.wM (s.flag .c) s.acc)
        :: nz s.wM (shiftedWord op s.wM (s.flag .c) s.acc)) := by
  have hv := toNat_lt_of_trunc s.trunc_acc
  obtain ⟨⟨-, hacc, hB⟩, hnz⟩ := s.loadAcc_spec (trunc_shiftedWord hv op (s.flag .c))
  rw [State.shiftAcc, shiftResult_eq hv]
  exact ⟨⟨rfl, hacc, hB⟩, hnz.setFlag_cons (by simp [nz]) _⟩

/-- The memory forms read the whole operand, then write the whole result (R244). -/
theorem State.shiftMem_spec (md : MemMode) {v : Word} (hv : s.load (s.ea md) s.wM = v) :
    s.shiftMem op md = { s with mem := (s.shiftMem op md).mem, p := (s.shiftMem op md).p }
      ∧ Wrote s (s.shiftMem op md) (storeWrites (s.ea md) s.wM (shiftedWord op s.wM (s.flag .c) v))
      ∧ Sets s (s.shiftMem op md) ((.c, shiftedCarry op s.wM (s.flag .c) v)
        :: nz s.wM (shiftedWord op s.wM (s.flag .c) v)) := by
  have hlt : v.toNat < 2 ^ s.wM.bits := hv ▸ toNat_lt_of_trunc (trunc_load s (s.ea md) s.wM)
  obtain ⟨hframe, hwrote, hnz⟩ := s.modifyMem_spec md (trunc_shiftedWord hlt op (s.flag .c))
  rw [State.shiftMem, State.operand, hv, shiftResult_eq hlt]
  exact ⟨congrArg (State.setFlag · .c (shiftedCarry op s.wM (s.flag .c) v)) hframe, hwrote.congr rfl rfl rfl,
    hnz.setFlag_cons (by simp [nz]) _⟩

end

/-- Each mnemonic of the family with its accumulator form and its operation. -/
def shiftRows : List (Mnemonic × Instr × ShiftOp) :=
  [(.asl, .aslAcc, .asl), (.lsr, .lsrAcc, .lsr), (.rol, .rolAcc, .rol), (.ror, .rorAcc, .ror)]

/-- What each mnemonic's accumulator form and memory forms answer. -/
theorem exec_shiftRows (s : State) : ∀ row ∈ shiftRows, exec row.2.1 s = .next (s.shiftAcc row.2.2)
    ∧ ∀ i md, i.mnemonic = row.1 → i.operand = .data md → exec i s = .next (s.shiftMem row.2.2 md) := by
  simp only [shiftRows, List.forall_mem_cons, List.not_mem_nil, false_imp_iff, implies_true, and_true]
  exact ⟨⟨rfl, fun i => exec_asl_data i s⟩, ⟨rfl, fun i => exec_lsr_data i s⟩, ⟨rfl, fun i => exec_rol_data i s⟩,
    ⟨rfl, fun i => exec_ror_data i s⟩⟩

/-- Settles O28: every accumulator form is `shiftAcc` and every memory form `shiftMem`, whose moves are those on
numbers. -/
theorem shiftsAndRotatesMoveOneBit : Obligations.ShiftsAndRotatesMoveOneBit := by
  refine ⟨hasForms_of_table _ _ (by decide +kernel), hasForms_of_table _ _ (by decide +kernel),
    hasForms_of_table _ _ (by decide +kernel), hasForms_of_table _ _ (by decide +kernel), fun s row hrow => ?_⟩
  obtain ⟨hacc, hmem⟩ := exec_shiftRows s row hrow
  exact ⟨⟨_, hacc, s.shiftAcc_spec row.2.2⟩,
    fun i md hmn ho => ⟨_, hmem i md hmn ho, s.shiftMem_spec row.2.2 md rfl⟩⟩

end Machine
end Sys2Proof
end

section
/-! Branches and jumps (45_branch_jump.md): the targets as numbers, and what the short branches, BRL, JMP and JML make
of PC and PBR. -/

namespace Sys2Proof
namespace Machine

section
variable (s : State)

/-! ## The short branches (R155, R250) -/

/-- A short branch's target is the sum with the signed displacement, modulo 2^16 (R155). -/
theorem State.toNat_branchTarget (o : Byte) :
    ((s.branchTarget o).toNat : Int) = ((s.pc.toNat : Int) + o.toInt) % 2 ^ 16 := by
  have htarget : s.branchTarget o = BitVec.ofInt 16 (s.pc.toNat + o.toInt) := by
    rw [BitVec.ofInt_add, ofInt_toNat]
    rfl
  rw [htarget, BitVec.toNat_ofInt]
  exact Int.toNat_of_nonneg (Int.emod_nonneg _ (by decide))

/-- The common rule of the short branches changes PC alone (R250). -/
theorem State.branchIf_spec (cond : Bool) (o : Byte) :
    s.branchIf cond o = { s with pc := (s.branchIf cond o).pc }
      ∧ ((s.branchIf cond o).pc.toNat : Int)
        = if cond then ((s.pc.toNat : Int) + o.toInt) % 2 ^ 16 else (s.pc.toNat : Int) := by
  refine ⟨rfl, ?_⟩
  cases cond with
  | true => exact s.toNat_branchTarget o
  | false => rfl

/-- Each short branch with its condition (R251 to R259). -/
def branchRows (o : Byte) : List (Instr × Bool) :=
  [(.bpl o, !s.flag .n), (.bmi o, s.flag .n), (.bvc o, !s.flag .v), (.bvs o, s.flag .v), (.bcc o, !s.flag .c),
    (.bcs o, s.flag .c), (.bne o, !s.flag .z), (.beq o, s.flag .z), (.bra o, true)]

/-- Every short branch answers by the common rule, under its own condition. -/
theorem exec_branchRows (o : Byte) : ∀ row ∈ branchRows s o, exec row.1 s = .next (s.branchIf row.2 o) := by
  simp only [branchRows, List.forall_mem_cons, List.not_mem_nil, false_imp_iff, implies_true, and_true]
  exact ⟨rfl, rfl, rfl, rfl, rfl, rfl, rfl, rfl, rfl⟩

/-! ## The jumps' targets (R152 to R154, R156) -/

/-- BRL's displacement is added modulo 2^16 (R156). -/
theorem State.toNat_longTarget (o : Word) : (s.longTarget o).toNat = (s.pc.toNat + o.toNat) % 2 ^ 16 :=
  BitVec.toNat_add s.pc o

/-- The pointer of `JMP (a)`, in bank `$00` (R152). -/
theorem State.toNat_read0_word (a : Word) : (s.read0 a).toNat = s.bank0Word a.toNat := by
  simpa only [BitVec.ofNat_toNat, BitVec.setWidth_eq] using s.toNat_read0 a.toNat

/-- The pointer of `JML [a]`, in bank `$00` (R154). -/
theorem State.toNat_readPtr24_word (a : Word) : (s.readPtr24 a).toNat = s.bank0Long a.toNat := by
  simpa only [BitVec.ofNat_toNat, BitVec.setWidth_eq] using s.toNat_readPtr24 a.toNat

/-- The pointer of `(a,x)`, in the program bank (R153). -/
theorem State.toNat_indexedTarget (a : Word) :
    (s.indexedTarget a).toNat = s.byteAt (s.pbr.toNat * 65536 + (a.toNat + s.xNat) % 2 ^ 16)
      + 256 * s.byteAt (s.pbr.toNat * 65536 + (a.toNat + s.xNat + 1) % 2 ^ 16) := by
  rw [State.indexedTarget, State.add_idxX, State.toNat_readInBank]

/-- A long jump changes PC and PBR alone, to the halves of its target (R266). -/
theorem State.jumpLong_spec (target : Addr) :
    s.jumpLong target = { s with pc := (s.jumpLong target).pc, pbr := (s.jumpLong target).pbr }
      ∧ (s.jumpLong target).pbr.toNat * 65536 + (s.jumpLong target).pc.toNat = target.toNat := by
  refine ⟨rfl, ?_⟩
  calc (bankOf target).toNat * 65536 + (offsetOf target).toNat
      = (joinAddr (bankOf target) (offsetOf target)).toNat := (toNat_joinAddr _ _).symm
    _ = target.toNat := by rw [joinAddr_bankOf_offsetOf]

end

/-- Settles O29: every short branch is `branchIf` under its condition. -/
theorem shortBranchesAddTheDisplacement : Obligations.ShortBranchesAddTheDisplacement := by
  refine ⟨?forms, fun s o row hrow => ⟨_, exec_branchRows s o row hrow, s.branchIf_spec row.2 o⟩⟩
  case forms =>
    intro row hrow
    apply hasForms_of_table
    revert row hrow
    decide +kernel

/-- Settles O30: every form is `jump` or `jumpLong` to its mode's target. -/
theorem jumpsSetThePc : Obligations.JumpsSetThePc :=
  ⟨hasForms_of_table _ _ (by decide +kernel), hasForms_of_table _ _ (by decide +kernel),
    hasForms_of_table _ _ (by decide +kernel), fun s a al =>
    ⟨⟨s.jump (s.longTarget a), rfl, rfl, s.toNat_longTarget a⟩,
      ⟨s.jump a, rfl, rfl⟩,
      ⟨s.jump (s.read0 a), rfl, rfl, s.toNat_read0_word a⟩,
      ⟨s.jump (s.indexedTarget a), rfl, rfl, s.toNat_indexedTarget a⟩,
      ⟨s.jumpLong al, rfl, s.jumpLong_spec al⟩,
      ⟨s.jumpLong (s.readPtr24 a), rfl, s.toNat_readPtr24_word a ▸ s.jumpLong_spec (s.readPtr24 a)⟩⟩⟩

end Machine
end Sys2Proof
end

section
/-! Calls and the stack (46_subroutine_stack.md): what pushes, pulls, calls and returns do, and that the bytes of a
frame are found where they were pushed. -/

namespace Sys2Proof
namespace Machine

/-! ## Pushes (R280, R282, R283) -/

section
variable (s : State) (k : StackRule)

theorem State.push8_spec (v : Byte) :
    s.push8 k v = { s with mem := (s.push8 k v).mem, sp := (s.push8 k v).sp } ∧ Pushed s (s.push8 k v) k [v] :=
  ⟨rfl, (Pushed.refl s k).push8 (by simp) rfl rfl v⟩

theorem State.push16_spec (v : Word) :
    s.push16 k v = { s with mem := (s.push16 k v).mem, sp := (s.push16 k v).sp }
      ∧ Pushed s (s.push16 k v) k [highByte v, lowByte v] :=
  ⟨rfl, (Pushed.refl s k).push16 (by simp) rfl rfl v⟩

/-- A push of a width depends on the value's bytes of that width alone. -/
theorem pushOrder_trunc (w : Width) (v : Word) : pushOrder w (w.trunc v) = pushOrder w v := by
  cases w with
  | byte => simp only [pushOrder, Width.trunc, lowByte_zeroExtend8]
  | word => rfl

/-- Pushing a register as it reads at the width pushes the register's own bytes (R298, R300, R301). -/
theorem State.pushW_trunc_spec (w : Width) (v : Word) :
    s.pushW k w (w.trunc v)
        = { s with mem := (s.pushW k w (w.trunc v)).mem, sp := (s.pushW k w (w.trunc v)).sp }
      ∧ Pushed s (s.pushW k w (w.trunc v)) k (pushOrder w v) := by
  refine ⟨?_, pushOrder_trunc w v ▸ Pushed.pushW s k w (w.trunc v)⟩
  cases w <;> rfl

end

/-- A pushed word by its two bytes. -/
theorem toNat_lowByte_add_highByte (v : Word) : (lowByte v).toNat + 256 * (highByte v).toNat = v.toNat := by
  rw [← toNat_joinBytes, joinBytes_high_low]

/-- A push of a word known as a number. -/
theorem State.push16_wide_spec (s : State) {v : Word} {n : Nat} (hv : v.toNat = n) :
    s.push16 .wide v = { s with mem := (s.push16 .wide v).mem, sp := (s.push16 .wide v).sp }
      ∧ ∃ hi lo, Pushed s (s.push16 .wide v) .wide [hi, lo] ∧ lo.toNat + 256 * hi.toNat = n := by
  obtain ⟨hframe, hpushed⟩ := s.push16_spec .wide v
  exact ⟨hframe, _, _, hpushed, (toNat_lowByte_add_highByte v).trans hv⟩

/-- PEI's word, read at `D + d` in bank `$00` (R296). -/
theorem State.toNat_read0_directLong (s : State) (d : Byte) :
    (s.read0 (s.directLong d)).toNat = s.bank0Word (s.d.toNat + d.toNat) := by
  rw [State.directLong_eq, State.toNat_read0]

/-- Settles O34: each is `push16` under the wide rule of its word. -/
theorem pushEffectiveAddresses : Obligations.PushEffectiveAddresses :=
  ⟨hasForms_of_table _ _ (by decide +kernel), hasForms_of_table _ _ (by decide +kernel),
    hasForms_of_table _ _ (by decide +kernel), fun s v d =>
    ⟨⟨_, rfl, s.push16_spec .wide v⟩,
      ⟨_, rfl, s.push16_wide_spec (s.toNat_read0_directLong d)⟩,
      ⟨_, rfl, s.push16_wide_spec (s.toNat_longTarget v)⟩⟩⟩

/-- A byte with bits 5 and 4 set (R41). -/
theorem and_mx_of_bits {p : Byte} (hm : p.getLsbD 5 = true) (hx : p.getLsbD 4 = true) : p &&& 0x30 = 0x30 := by
  have hbits : ∀ i < 8, (0x30 : Byte).getLsbD i = true → i = 5 ∨ i = 4 := by decide
  refine BitVec.eq_of_getLsbD_eq fun i hi => ?_
  rw [BitVec.getLsbD_and, Bool.and_eq_right_iff_imp]
  intro h
  obtain rfl | rfl := hbits i hi h
  · exact hm
  · exact hx

/-- In emulation mode bits 5 and 4 of P are set (R42). -/
theorem State.p_and_mx_of_wf {s : State} (h : s.wf = true) (he : s.e = true) : s.p &&& 0x30 = 0x30 := by
  obtain ⟨hm, hx⟩ := (s.wf_iff.mp h).1.widths he
  exact and_mx_of_bits hm hx

/-- Settles O35: each is `push8`, `push16` or `pushW` of its register. -/
theorem pushesStoreARegister : Obligations.PushesStoreARegister := by
  refine ⟨?forms, fun s => ⟨?pushes, State.p_and_mx_of_wf⟩⟩
  case forms =>
    intro row hrow
    apply hasForms_of_table
    revert row hrow
    decide +kernel
  case pushes =>
    simp only [List.forall_mem_cons, List.not_mem_nil, false_imp_iff, implies_true, and_true]
    exact ⟨⟨_, rfl, s.pushW_trunc_spec .page s.wM s.c⟩, ⟨_, rfl, s.pushW_trunc_spec .page s.wX s.x⟩,
      ⟨_, rfl, s.pushW_trunc_spec .page s.wX s.y⟩, ⟨_, rfl, s.push8_spec .page s.p⟩,
      ⟨_, rfl, s.push8_spec .page s.dbr⟩, ⟨_, rfl, s.push8_spec .page s.pbr⟩, ⟨_, rfl, s.push16_spec .wide s.d⟩⟩

/-! ## Pulls (R281, R306 to R310) -/

section
variable (s : State)

theorem State.trunc_pulled (k : StackRule) (w : Width) : w.trunc (s.pulled k w) = s.pulled k w := by
  cases w with
  | byte => simp only [State.pulled, Width.trunc, lowByte_zeroExtend8]
  | word => rfl

/-- PLA is a load of the accumulator behind the pull (R306). -/
theorem exec_pla : exec .pla s
    = .next (State.loadAcc { s with sp := s.stackSlot .page (BitVec.ofNat 16 (byteCount s.wM)) }
        (s.pulled .page s.wM)) := by
  rw [← State.poppedW_eq, ← State.pullW_eq]
  rfl

theorem exec_plx : exec .plx s
    = .next (State.loadX { s with sp := s.stackSlot .page (BitVec.ofNat 16 (byteCount s.wX)) }
        (s.pulled .page s.wX)) := by
  rw [← State.poppedW_eq, ← State.pullW_eq]
  rfl

theorem exec_ply : exec .ply s
    = .next (State.loadY { s with sp := s.stackSlot .page (BitVec.ofNat 16 (byteCount s.wX)) }
        (s.pulled .page s.wX)) := by
  rw [← State.poppedW_eq, ← State.pullW_eq]
  rfl

/-- PLB's byte goes to DBR and sets N and Z at 8 bits (R309). -/
theorem State.pullDbr_spec :
    s.pullDbr = { s with sp := s.stackSlot .wide 1, dbr := s.stackByte .wide 1, p := s.pullDbr.p }
      ∧ Sets s s.pullDbr (nz .byte (s.pulled .wide .byte)) := by
  have hflags : Sets s (s.setNZ .byte (s.pulled .wide .byte)) _ := Sets.setNZ s .byte _ (s.trunc_pulled .wide .byte)
  rw [State.pullDbr, State.popped1_eq, State.pull8_eq]
  exact ⟨rfl, hflags.congr rfl⟩

/-- PLD's word goes to D and sets N and Z at 16 bits (R310). -/
theorem State.pullD_spec :
    s.pullD = { s with sp := s.stackSlot .wide 2, d := s.pulled .wide .word, p := s.pullD.p }
      ∧ Sets s s.pullD (nz .word (s.pulled .wide .word)) := by
  have hflags : Sets s (s.setNZ .word (s.pulled .wide .word)) _ := Sets.setNZ s .word _ (s.trunc_pulled .wide .word)
  rw [State.pullD, State.poppedW_eq, State.pull16_eq]
  exact ⟨rfl, hflags.congr rfl⟩

/-- P pulled from the stack, field by field (R292, R305). -/
theorem State.pulledP_eq (p : Byte) :
    s.pulledP p =
      { s with
        p := if s.e then p ||| 0x30 else p
        x := if !s.e && p.getLsbD 4 then zeroExtend8 (lowByte s.x) else s.x
        y := if !s.e && p.getLsbD 4 then zeroExtend8 (lowByte s.y) else s.y } := by
  rw [State.pulledP]
  split
  next he => simp [he]
  next he => simp [he, State.writeP, clampIndex]

end

/-- Settles O36: each is a load of its register behind a pull of the register's width. -/
theorem pullsLoadARegister : Obligations.PullsLoadARegister := by
  refine ⟨?forms, fun s => ?pulls⟩
  case forms =>
    intro row hrow
    apply hasForms_of_table
    revert row hrow
    decide +kernel
  case pulls =>
    exact ⟨⟨_, exec_pla s, State.loadAcc_spec _ (s.trunc_pulled .page s.wM)⟩,
      ⟨_, exec_plx s, State.loadX_spec _ (s.trunc_pulled .page s.wX)⟩,
      ⟨_, exec_ply s, State.loadY_spec _ (s.trunc_pulled .page s.wX)⟩,
      ⟨_, rfl, s.pullDbr_spec⟩, ⟨_, rfl, s.pullD_spec⟩⟩

/-- Settles O37: PLP is `pulledP` of the byte above S. -/
theorem plpLoadsTheStatus : Obligations.PlpLoadsTheStatus := by
  refine ⟨hasForms_of_table _ _ (by decide +kernel), fun s => ⟨_, rfl, ?_⟩⟩
  rw [State.popped1_eq, State.pull8_eq, State.pulledP_eq]

/-! ## Calls and returns (R285 to R289, R292) -/

section
variable (s : State)

/-- A call pushes the address of its own last byte and jumps (R285, R286). -/
theorem State.call_spec (k : StackRule) (a : Word) :
    (s.pushReturn k).jump a
        = { s with mem := ((s.pushReturn k).jump a).mem, sp := ((s.pushReturn k).jump a).sp, pc := a }
      ∧ Pushed s ((s.pushReturn k).jump a) k [highByte (s.pc - 1), lowByte (s.pc - 1)] :=
  ⟨rfl, (s.push16_spec k (s.pc - 1)).2.congr rfl rfl rfl rfl⟩

/-- The state a long call leaves: PBR and the return address pushed, then the jump (R287). -/
def State.callLong (al : Addr) : State := ((s.push8 .wide s.pbr).pushReturn .wide).jumpLong al

theorem exec_jsl (al : Addr) : exec (.jsl al) s = .next (s.callLong al) := rfl

theorem State.callLong_spec (al : Addr) :
    s.callLong al = { s with mem := (s.callLong al).mem, sp := (s.callLong al).sp, pc := (s.callLong al).pc,
                             pbr := (s.callLong al).pbr }
      ∧ Pushed s (s.callLong al) .wide [s.pbr, highByte (s.pc - 1), lowByte (s.pc - 1)]
      ∧ (s.callLong al).pbr.toNat * 65536 + (s.callLong al).pc.toNat = al.toNat := by
  obtain ⟨-, hbank⟩ := s.push8_spec .wide s.pbr
  exact ⟨rfl, (hbank.push16 (by simp) rfl rfl (s.pc - 1)).congr rfl rfl rfl rfl, (State.jumpLong_spec _ al).2⟩

theorem State.returnNear_eq :
    s.returnNear = { s with sp := s.stackSlot .page 2
                            pc := joinBytes (s.stackByte .page 2) (s.stackByte .page 1) + 1 } := by
  rw [State.returnNear, State.poppedW_eq, State.pull16_eq]
  rfl

theorem State.returnLong_eq :
    s.returnLong = { s with sp := s.stackSlot .wide 3
                            pc := joinBytes (s.stackByte .wide 2) (s.stackByte .wide 1) + 1
                            pbr := s.stackByte .wide 3 } := by
  simp only [State.returnLong, State.poppedW, State.popped3_eq, State.popped2_pull8, State.pull16_eq]

end

/-- Settles O31: each is the push of its return address and the jump to its target. -/
theorem callsPushTheReturnAddress : Obligations.CallsPushTheReturnAddress := by
  refine ⟨hasForms_of_table _ _ (by decide +kernel), hasForms_of_table _ _ (by decide +kernel), fun s a al =>
    ⟨⟨_, rfl, s.call_spec .page a⟩, ?indexed, ⟨_, exec_jsl s al, s.callLong_spec al⟩⟩⟩
  case indexed =>
    obtain ⟨hframe, hpushed⟩ := s.call_spec .wide ((s.pushReturn .wide).indexedTarget a)
    exact ⟨_, rfl, hframe, hpushed, (s.pushReturn .wide).toNat_indexedTarget a⟩

/-- Settles O32: `returnNear` and `returnLong` in closed form. -/
theorem returnsPullTheAddress : Obligations.ReturnsPullTheAddress :=
  ⟨hasForms_of_table _ _ (by decide +kernel), hasForms_of_table _ _ (by decide +kernel), fun s =>
    ⟨⟨_, rfl, s.returnNear_eq⟩, ⟨_, rfl, s.returnLong_eq⟩⟩⟩

/-- Settles O33: RTI is `returnFromInterrupt`, and its status byte follows the rule of PLP's. -/
theorem rtiRestoresStatusAndPc : Obligations.RtiRestoresStatusAndPc := by
  refine ⟨hasForms_of_table _ _ (by decide +kernel), fun s => ⟨_, rfl, ?_⟩⟩
  rw [State.returnFromInterrupt_eq, State.pulledP_eq]

/-! ## Stack slots as offsets from S -/

section
variable {s t : State} {k : StackRule}

/-- Where the page rule applies, S lies in page 1, as every step leaves it (R25, R42). -/
def State.StackInPage (s : State) (k : StackRule) : Prop := s.e = true → k = .page → highByte s.sp = 1

theorem State.stackInPage_of_modeOk (h : s.modeOk = true) : s.StackInPage k := by
  intro he _
  simp only [State.modeOk, he, Bool.not_true, Bool.false_or, Bool.and_eq_true, beq_iff_eq] at h
  exact h.2

/-- With S in page 1 all slots of the page rule are given by one formula. -/
theorem State.StackInPage.stackSlot_eq (h : s.StackInPage .page) (he : s.e = true) (n : Word) :
    s.stackSlot .page n = joinBytes 1 (lowByte (s.sp + n)) := by
  by_cases hn : n = 0
  · rw [hn, stackSlot_zero, ← h he rfl]
    simp
  · rw [stackSlot_page s n hn he, lowByte_add]

/-- Slots seen from another slot. -/
theorem State.StackInPage.stackSlot_add (h : s.StackInPage k) (he : t.e = s.e) {m : Word}
    (hsp : t.sp = s.stackSlot k m) (n : Word) : t.stackSlot k n = s.stackSlot k (m + n) := by
  by_cases hpage : s.e = true ∧ k = .page
  · obtain ⟨hse, rfl⟩ := hpage
    have ht : t.StackInPage .page := fun _ _ => by rw [hsp, h.stackSlot_eq hse, highByte_joinBytes]
    rw [h.stackSlot_eq hse, ht.stackSlot_eq (he.trans hse), hsp, h.stackSlot_eq hse, lowByte_add,
      lowByte_joinBytes, ← lowByte_add, BitVec.add_assoc]
  · rw [stackSlot_else s k _ hpage, stackSlot_else t k _ (he ▸ hpage), hsp, stackSlot_else s k _ hpage,
      BitVec.add_assoc]

/-- Both rules agree on the low byte of a slot. -/
theorem State.lowByte_stackSlot (s : State) (k : StackRule) (n : Word) :
    lowByte (s.stackSlot k n) = lowByte (s.sp + n) := by
  by_cases hpage : s.e = true ∧ k = .page
  · obtain ⟨he, rfl⟩ := hpage
    by_cases hn : n = 0
    · rw [hn, stackSlot_zero]
      simp
    · rw [stackSlot_page s n hn he, lowByte_joinBytes, lowByte_add]
  · rw [stackSlot_else s k n hpage]

/-- No two of 256 consecutive slots coincide. -/
theorem State.stackSlot_neg_inj {i j : Nat} (hi : i < 256) (hj : j < 256)
    (h : s.stackSlot k (-BitVec.ofNat 16 i) = s.stackSlot k (-BitVec.ofNat 16 j)) : i = j := by
  have hlow := congrArg (fun v => (lowByte v).toNat) h
  simp only [State.lowByte_stackSlot, toNat_lowByte, BitVec.toNat_add, BitVec.toNat_neg, BitVec.toNat_ofNat] at hlow
  omega

/-- In native mode both rules count S at 16 bits (R280). -/
theorem State.stackSlot_native (he : s.e = false) (k k' : StackRule) : s.stackSlot k = s.stackSlot k' := by
  funext n
  rw [stackSlot_else s k n (by simp [he]), stackSlot_else s k' n (by simp [he])]

/-! ## A frame is found where it was pushed (R290) -/

/-- RAM at the last write to an address makes it what a read then gives. -/
theorem Wrote.readByte_of_mem {ws : List (Addr × Byte)} (h : Wrote s t ws) (hnd : (ws.map Prod.fst).Nodup)
    {a : Addr} {v : Byte} (hmem : (a, v) ∈ ws) (hram : kindAt s.platform.memMap a.toNat = .ram) :
    t.readByte a = v := by
  obtain ⟨before, after, rfl⟩ := List.append_of_mem hmem
  have hlast : a ∉ after.map Prod.fst := by
    rw [List.map_append, List.map_cons] at hnd
    exact (List.nodup_cons.mp hnd.of_append_right).1
  have hlookup : (before ++ (a, v) :: after).reverse.lookup a = some v := by
    refine List.lookup_eq_some_iff.mpr ⟨after.reverse, before.reverse, by simp, fun bw hbw => ?_⟩
    rw [bne_iff_ne]
    rintro rfl
    exact hlast (List.mem_map_of_mem (List.mem_reverse.mp hbw))
  rw [h a, hlookup]
  exact if_pos hram

/-- The addresses of at most 256 pushes are all different. -/
theorem State.nodup_pushAddrs (s : State) (k : StackRule) {n : Nat} (hn : n ≤ 256) : (s.pushAddrs k n).Nodup := by
  refine List.Nodup.map_on (fun i hi j hj hij => ?_) List.nodup_range
  rw [List.mem_range] at hi hj
  have hslot := congrArg offsetOf hij
  rw [offsetOf_joinAddr, offsetOf_joinAddr] at hslot
  exact State.stackSlot_neg_inj (by omega) (by omega) hslot

theorem State.mem_pushWrites (s : State) (k : StackRule) (bs : List Byte) {j : Nat} (hj : j < bs.length) :
    (joinAddr 0 (s.stackSlot k (-BitVec.ofNat 16 j)), bs[j]) ∈ s.pushWrites k bs :=
  List.mem_map.mpr ⟨(bs[j], j), List.mk_mem_zipIdx_iff_getElem?.mpr (List.getElem?_eq_getElem hj), rfl⟩

/-- The next `n` pushes go to RAM. -/
def State.FrameInRam (s : State) (k : StackRule) (n : Nat) : Prop :=
  ∀ j < n, kindAt s.platform.memMap (joinAddr 0 (s.stackSlot k (-BitVec.ofNat 16 j))).toNat = .ram

theorem State.FrameInRam.mono {m n : Nat} (h : s.FrameInRam k n) (hmn : m ≤ n) : s.FrameInRam k m :=
  fun j hj => h j (hj.trans_le hmn)

theorem State.FrameInRam.of_native (he : s.e = false) {n : Nat} (h : s.FrameInRam k n) (k' : StackRule) :
    s.FrameInRam k' n := by
  intro j hj
  rw [State.stackSlot_native he k' k]
  exact h j hj

theorem Pushed.of_native (he : s.e = false) {bs : List Byte} (h : Pushed s t k bs) (k' : StackRule) :
    Pushed s t k' bs := by
  rw [Pushed, State.pushWrites, State.stackSlot_native he k' k]
  exact h

variable {bs : List Byte} (h : Pushed s t k bs) (hin : s.StackInPage k) (he : t.e = s.e)
include h hin he

/-- After the pushes, S moved up over all of them is S as it was. -/
theorem Pushed.stackSlot_length : t.stackSlot k (BitVec.ofNat 16 bs.length) = s.sp := by
  rw [hin.stackSlot_add he h.2, BitVec.add_comm, BitVec.add_right_neg]
  rfl

/-- The byte pushed as number `j` is found above as many bytes as were pushed after it. -/
theorem Pushed.stackByte_sub (hram : s.FrameInRam k bs.length) (hlen : bs.length ≤ 256) {j : Nat}
    (hj : j < bs.length) : t.stackByte k (BitVec.ofNat 16 (bs.length - j)) = bs[j] := by
  have hoff : -BitVec.ofNat 16 bs.length + BitVec.ofNat 16 (bs.length - j) = -BitVec.ofNat 16 j := by
    apply BitVec.eq_of_toNat_eq
    simp only [BitVec.toNat_add, BitVec.toNat_neg, BitVec.toNat_ofNat]
    omega
  have hnd : ((s.pushWrites k bs).map Prod.fst).Nodup := by
    rw [s.map_fst_pushWrites]
    exact s.nodup_pushAddrs k hlen
  rw [State.stackByte, hin.stackSlot_add he h.2, hoff]
  exact h.1.readByte_of_mem hnd (s.mem_pushWrites k bs hj) (hram j hj)

end

/-! ## A return undoes a call (R290) -/

theorem joinBytes_sub_add_one (v : Word) : joinBytes (highByte (v - 1)) (lowByte (v - 1)) + 1 = v := by
  rw [joinBytes_high_low, BitVec.sub_add_cancel]

section
variable {s t : State}

/-- RTS after a near call gives back everything but memory. -/
theorem Pushed.returnNear_eq (h : Pushed s t .page [highByte (s.pc - 1), lowByte (s.pc - 1)]) {target : Word}
    (hregs : t = { s with mem := t.mem, sp := t.sp, pc := target }) (hin : s.StackInPage .page)
    (hram : s.FrameInRam .page 2) : t.returnNear = { s with mem := t.mem } := by
  have he : t.e = s.e := by rw [hregs]
  have hsp : t.stackSlot .page 2 = s.sp := h.stackSlot_length hin he
  have hhigh : t.stackByte .page 2 = highByte (s.pc - 1) := h.stackByte_sub hin he hram (by simp) (j := 0) (by simp)
  have hlow : t.stackByte .page 1 = lowByte (s.pc - 1) := h.stackByte_sub hin he hram (by simp) (j := 1) (by simp)
  calc t.returnNear = { t with sp := s.sp, pc := s.pc } := by
        rw [State.returnNear_eq, hsp, hhigh, hlow, joinBytes_sub_add_one]
    _ = { s with mem := t.mem } := congrArg (fun u => { u with sp := s.sp, pc := s.pc }) hregs

/-- RTL after a long call gives back everything but memory. -/
theorem Pushed.returnLong_eq (h : Pushed s t .wide [s.pbr, highByte (s.pc - 1), lowByte (s.pc - 1)])
    (hregs : t = { s with mem := t.mem, sp := t.sp, pc := t.pc, pbr := t.pbr }) (hram : s.FrameInRam .wide 3) :
    t.returnLong = { s with mem := t.mem } := by
  have he : t.e = s.e := by rw [hregs]
  have hin : s.StackInPage .wide := fun _ hk => StackRule.noConfusion hk
  have hsp : t.stackSlot .wide 3 = s.sp := h.stackSlot_length hin he
  have hbank : t.stackByte .wide 3 = s.pbr := h.stackByte_sub hin he hram (by simp) (j := 0) (by simp)
  have hhigh : t.stackByte .wide 2 = highByte (s.pc - 1) := h.stackByte_sub hin he hram (by simp) (j := 1) (by simp)
  have hlow : t.stackByte .wide 1 = lowByte (s.pc - 1) := h.stackByte_sub hin he hram (by simp) (j := 2) (by simp)
  calc t.returnLong = { t with sp := s.sp, pc := s.pc, pbr := s.pbr } := by
        rw [State.returnLong_eq, hsp, hbank, hhigh, hlow, joinBytes_sub_add_one]
    _ = { s with mem := t.mem } := congrArg (fun u => { u with sp := s.sp, pc := s.pc, pbr := s.pbr }) hregs

end

/-- Settles O59: the return finds what the call pushed; in native mode both stack rules name the same slots, so RTS
serves JSR (a,x) too. -/
theorem returnUndoesCall : Obligations.ReturnUndoesCall := by
  intro s t a al hram hmode
  have hframe : s.FrameInRam .page 3 := hram
  have hin : s.StackInPage .page := State.stackInPage_of_modeOk hmode
  refine ⟨fun hcall => ?jsr, fun he hcall => ?jsrIndexed, fun he hcall => ?jsl⟩
  case jsr =>
    cases hcall
    obtain ⟨hregs, hpushed⟩ := s.call_spec .page a
    exact ⟨_, rfl, hpushed.returnNear_eq hregs hin (hframe.mono (by decide))⟩
  case jsrIndexed =>
    cases hcall
    obtain ⟨hregs, hpushed⟩ := s.call_spec .wide ((s.pushReturn .wide).indexedTarget a)
    exact ⟨_, rfl, (hpushed.of_native he .page).returnNear_eq hregs hin (hframe.mono (by decide))⟩
  case jsl =>
    cases hcall
    obtain ⟨hregs, hpushed, -⟩ := s.callLong_spec al
    exact ⟨_, rfl, hpushed.returnLong_eq hregs (hframe.of_native he .wide)⟩

end Machine
end Sys2Proof
end

section
/-! Transfers and exchanges (47_transfer.md): each transfer is a load of its destination with the source cut to the
destination's width; XBA and XCE. -/

namespace Sys2Proof
namespace Machine

/-- The forms of several mnemonics of one implied instruction each can be read off the table (R105). -/
theorem hasForms_of_rows {rows : List (Mnemonic × Byte)}
    (h : ∀ row ∈ rows, formTable.all (fun r => decide (r.1 = row.1 ↔ r.2 ∈ [(row.2, Format.imp)])) = true) :
    ∀ row ∈ rows, HasForms row.1 [(row.2, .imp)] :=
  fun row hrow => hasForms_of_table _ _ (h row hrow)

/-! ## Transfers (R330 to R342) -/

/-- A word cut to a width is its own number modulo `2^(8w)` (R202). -/
theorem trunc_eq_wrap (w : Width) (v : Word) : w.trunc v = wrap w v.toNat := by
  rw [← trunc_ofInt, ofInt_toNat]

section
variable (s : State)

/-- The transfers into X with the register each reads, at 16 bits (R331, R335, R338). -/
theorem exec_transfersToX :
    ∀ row ∈ [(Instr.tax, s.c), (.tsx, s.sp), (.tyx, s.y)], exec row.1 s = .next (s.loadX (wrap s.wX row.2.toNat)) := by
  simp only [List.forall_mem_cons, List.not_mem_nil, false_imp_iff, implies_true, and_true, ← trunc_eq_wrap]
  exact ⟨rfl, rfl, rfl⟩

/-- The transfers into Y (R332, R337). -/
theorem exec_transfersToY :
    ∀ row ∈ [(Instr.tay, s.c), (.txy, s.x)], exec row.1 s = .next (s.loadY (wrap s.wX row.2.toNat)) := by
  simp only [List.forall_mem_cons, List.not_mem_nil, false_imp_iff, implies_true, and_true, ← trunc_eq_wrap]
  exact ⟨rfl, rfl⟩

/-- The transfers into the accumulator (R333, R334). -/
theorem exec_transfersToAcc :
    ∀ row ∈ [(Instr.txa, s.x), (.tya, s.y)], exec row.1 s = .next (s.loadAcc (wrap s.wM row.2.toNat)) := by
  simp only [List.forall_mem_cons, List.not_mem_nil, false_imp_iff, implies_true, and_true, ← trunc_eq_wrap]
  exact ⟨rfl, rfl⟩

/-- `D <- v; SetNZ(v, 2)` (R339). -/
theorem State.loadD_spec (v : Word) :
    s.loadD v = { s with d := v, p := (s.loadD v).p } ∧ Sets s (s.loadD v) (nz .word v) :=
  ⟨rfl, (Sets.setNZ s .word v rfl).congr rfl⟩

/-- `C <- v; SetNZ(v, 2)` (R340, R342). -/
theorem State.loadC_spec (v : Word) :
    s.loadC v = { s with c := v, p := (s.loadC v).p } ∧ Sets s (s.loadC v) (nz .word v) :=
  ⟨rfl, (Sets.setNZ s .word v rfl).congr rfl⟩

end

/-- Settles O38: each is `loadX`, `loadY` or `loadAcc` of its source cut to the destination's width. -/
theorem transfersToAXY : Obligations.TransfersToAXY :=
  ⟨hasForms_of_rows (by decide +kernel), fun s =>
    ⟨fun row hrow => ⟨_, exec_transfersToX s row hrow, s.loadX_spec (trunc_wrap _ _)⟩,
      fun row hrow => ⟨_, exec_transfersToY s row hrow, s.loadY_spec (trunc_wrap _ _)⟩,
      fun row hrow => ⟨_, exec_transfersToAcc s row hrow, s.loadAcc_spec (trunc_wrap _ _)⟩⟩⟩

/-- Settles O39: the writes of S are `setSp`, the others `loadD` and `loadC`. -/
theorem transfersOfSAndD : Obligations.TransfersOfSAndD := by
  refine ⟨hasForms_of_rows (by decide +kernel), fun s =>
    ⟨?toSp, ⟨_, rfl, s.loadD_spec s.c⟩, ⟨_, rfl, s.loadC_spec s.d⟩, ⟨_, rfl, s.loadC_spec s.sp⟩⟩⟩
  case toSp =>
    simp only [List.forall_mem_cons, List.not_mem_nil, false_imp_iff, implies_true, and_true]
    exact ⟨⟨s.setSp s.x, rfl, rfl⟩, ⟨s.setSp s.c, rfl, rfl⟩⟩

/-! ## Exchanges (R343, R345) -/

/-- Settles O40: the two bytes of C are joined the other way round, and N and Z come from the low one. -/
theorem xbaExchangesBAndA : Obligations.XbaExchangesBAndA := by
  refine ⟨hasForms_of_table _ _ (by decide +kernel), fun s => ⟨_, rfl, rfl, ?_, ?_, ?_⟩⟩
  · exact lowByte_joinBytes _ _
  · exact highByte_joinBytes _ _
  · have hfits : Width.trunc .byte (zeroExtend8 (highByte s.c)) = zeroExtend8 (highByte s.c) :=
      congrArg zeroExtend8 (lowByte_zeroExtend8 _)
    exact (Sets.setNZ s .byte _ hfits).congr rfl

/-- The mask that emulation mode keeps set in P is m and x (R41). -/
theorem getLsbD_or_mx (p : Byte) (f : Flag) :
    (p ||| 0x30).getLsbD f.bit = if f = .m ∨ f = .x then true else p.getLsbD f.bit := by
  rw [BitVec.getLsbD_or]
  cases f <;> simp [Flag.bit]

/-- Emulation mode forces the flags m and x and no other (R44, R345). -/
theorem State.sets_forceEmulation (s : State) : Sets s s.forceEmulation [(.m, true), (.x, true)] := by
  refine ⟨fun fb hfb => ?_, fun f hf => ?_⟩
  · simp only [List.mem_cons, List.not_mem_nil, or_false] at hfb
    obtain rfl | rfl := hfb
    · exact or_mx_m s.p
    · exact or_mx_x s.p
  · exact (getLsbD_or_mx s.p f).trans (if_neg (by simpa using hf))

/-- Settles O41: C and E change places, and where E becomes 1 the forcing of emulation mode follows. -/
theorem xceExchangesCarryAndE : Obligations.XceExchangesCarryAndE := by
  refine ⟨hasForms_of_table _ _ (by decide +kernel), fun s => ⟨s.exchangeCE, rfl, ?_⟩⟩
  have hcarry : Sets s { s.setFlag .c s.e with e := s.flag .c } [(.c, s.e)] := (Sets.setFlag s .c s.e).congr rfl
  cases hc : s.flag .c with
  | true =>
    simp only [State.exchangeCE, hc, if_true] at hcarry ⊢
    exact ⟨rfl, hcarry.append (State.sets_forceEmulation _) (by simp)⟩
  | false =>
    simp only [State.exchangeCE, hc, Bool.false_eq_true, if_false] at hcarry ⊢
    exact ⟨rfl, hcarry⟩

end Machine
end Sys2Proof
end

section
/-! System and control (48_system_control.md): BRK and COP, WDM and NOP, WAI and STP, the flag instructions, REP and
SEP. -/

namespace Sys2Proof
namespace Machine

/-! ## Vectors (R400, R411) -/

theorem vector_brk (e : Bool) : vector .brk e = if e then 0xFFFE else 0xFFE6 := by cases e <;> rfl

theorem vector_cop (e : Bool) : vector .cop e = if e then 0xFFF4 else 0xFFE4 := by cases e <;> rfl

/-- Settles O42: each is the entry of its event through its vector. -/
theorem brkAndCopEnterTheirHandlers : Obligations.BrkAndCopEnterTheirHandlers :=
  ⟨hasForms_of_table _ _ (by decide +kernel), hasForms_of_table _ _ (by decide +kernel), fun s _ =>
    ⟨⟨_, rfl, vector_brk s.e ▸ s.enter_entered .brk⟩, ⟨_, rfl, vector_cop s.e ▸ s.enter_entered .cop⟩⟩⟩

/-! ## No-operations and halts (R365 to R368) -/

/-- Settles O43: both answer the state they start in. -/
theorem wdmAndNopDoNothing : Obligations.WdmAndNopDoNothing :=
  ⟨hasForms_of_table _ _ (by decide +kernel), hasForms_of_table _ _ (by decide +kernel), fun s _ =>
    ⟨⟨s, rfl, rfl⟩, ⟨s, rfl, rfl⟩⟩⟩

/-- Settles O44: both are `withRun`. -/
theorem waiAndStpHalt : Obligations.WaiAndStpHalt :=
  ⟨hasForms_of_table _ _ (by decide +kernel), hasForms_of_table _ _ (by decide +kernel), fun s =>
    ⟨⟨s.withRun .waiting, rfl, rfl⟩, ⟨s.withRun .stopped, rfl, rfl⟩⟩⟩

/-! ## Flag instructions (R369 to R375) -/

/-- The seven instructions that write one flag, with the flag and its value. -/
def flagRows : List (Instr × Flag × Bool) :=
  [(.sec, .c, true), (.clc, .c, false), (.sed, .d, true), (.cld, .d, false), (.sei, .i, true), (.cli, .i, false),
    (.clv, .v, false)]

theorem exec_flagRows (s : State) : ∀ row ∈ flagRows, exec row.1 s = .next (s.setFlag row.2.1 row.2.2) := by
  simp only [flagRows, List.forall_mem_cons, List.not_mem_nil, false_imp_iff, implies_true, and_true]
  exact ⟨rfl, rfl, rfl, rfl, rfl, rfl, rfl⟩

/-- Settles O45: every one is `setFlag` of its flag and value. -/
theorem flagInstructionsChangeOneFlag : Obligations.FlagInstructionsChangeOneFlag :=
  ⟨hasForms_of_rows (by decide +kernel), fun s row hrow =>
    ⟨_, exec_flagRows s row hrow, rfl, Sets.setFlag s row.2.1 row.2.2⟩⟩

/-! ## REP and SEP (R380, R381) -/

/-- REP clears the flags of its mask, but m and x stay 1 in emulation mode (R380). -/
theorem State.flag_resetBits (s : State) (k : Byte) (f : Flag) :
    (s.resetBits k).flag f = if s.e = true ∧ (f = .m ∨ f = .x) then true else s.flag f && !k.getLsbD f.bit := by
  have hcleared : (s.p &&& ~~~k).getLsbD f.bit = (s.flag f && !k.getLsbD f.bit) := by
    simp [State.flag, f.bit_lt]
  cases he : s.e with
  | true => simp only [State.flag, State.resetBits, he, if_true, getLsbD_or_mx, true_and, hcleared]
  | false => simpa [State.flag, State.resetBits, he] using hcleared

/-- SEP sets the flags of its mask (R381). -/
theorem State.flag_setBits (s : State) (k : Byte) (f : Flag) :
    (s.writeP (s.p ||| k)).flag f = (s.flag f || k.getLsbD f.bit) :=
  BitVec.getLsbD_or

/-- Settles O46: REP is `resetBits`, SEP is `writeP` of P with the mask's bits set, whose index registers follow the
new x. -/
theorem repAndSepChangeTheMaskedFlags : Obligations.RepAndSepChangeTheMaskedFlags :=
  ⟨hasForms_of_table _ _ (by decide +kernel), hasForms_of_table _ _ (by decide +kernel), fun s k =>
    ⟨⟨_, rfl, rfl, s.flag_resetBits k⟩, ⟨_, rfl, rfl, s.flag_setBits k⟩⟩⟩

end Machine
end Sys2Proof
end

section
/-! Block moves (49_block_move.md): one execution moves one byte; the invariant of a whole move says what was copied
so far and where the index registers stand. -/

namespace Sys2Proof
namespace Machine

/-! ## Wrapped numbers (R202) -/

theorem toNat_wrap (w : Width) (z : Int) : ((wrap w z).toNat : Int) = z % 2 ^ w.bits := by
  rw [wrap, BitVec.toNat_ofInt]
  cases w <;> (simp only [Width.bits]; omega)

theorem wrap_inj {w : Width} {y z : Int} : wrap w y = wrap w z ↔ y ≡ z [ZMOD 2 ^ w.bits] := by
  rw [← BitVec.toNat_inj, ← Int.natCast_inj, toNat_wrap, toNat_wrap]
  rfl

/-- A wrapped number moved on is the wrap of the number moved on. -/
theorem wrap_toNat_wrap_add (w : Width) (y z : Int) : wrap w ((wrap w y).toNat + z) = wrap w (y + z) := by
  rw [wrap_inj, toNat_wrap]
  exact Int.ModEq.add_right z (Int.mod_modEq y _)

theorem trunc_add_ofInt (w : Width) (v : Word) (z : Int) : w.trunc (v + BitVec.ofInt 16 z) = wrap w (v.toNat + z) := by
  rw [← trunc_ofInt, BitVec.ofInt_add, ofInt_toNat]

theorem State.idxX_eq_wrap (s : State) : s.idxX = wrap s.wX s.xNat := by
  rw [← s.toNat_idxX, ← trunc_eq_wrap, State.idxX, trunc_trunc]

theorem State.idxY_eq_wrap (s : State) : s.idxY = wrap s.wX s.yNat := by
  rw [← s.toNat_idxY, ← trunc_eq_wrap, State.idxY, trunc_trunc]

/-! ## One byte (R390, R391) -/

section
variable (s : State) (dst src : Byte) (dir : Int)

/-- The address of byte `j` of the source block (R390, R391). -/
def State.srcAddr (j : Nat) : Addr := blockAddr src s.wX s.idxX dir j

/-- The address of byte `j` of the destination block. -/
def State.dstAddr (j : Nat) : Addr := blockAddr dst s.wX s.idxY dir j

theorem State.srcAddr_eq (j : Nat) : s.srcAddr src dir j = joinAddr src (wrap s.wX (s.xNat + dir * j)) := by
  rw [State.srcAddr, blockAddr, s.toNat_idxX]

theorem State.dstAddr_eq (j : Nat) : s.dstAddr dst dir j = joinAddr dst (wrap s.wX (s.yNat + dir * j)) := by
  rw [State.dstAddr, blockAddr, s.toNat_idxY]

theorem State.srcAddr_zero : s.srcAddr src dir 0 = joinAddr src s.idxX := by
  simp [s.srcAddr_eq, s.idxX_eq_wrap]

theorem State.dstAddr_zero : s.dstAddr dst dir 0 = joinAddr dst s.idxY := by
  simp [s.dstAddr_eq, s.idxY_eq_wrap]

/-- Where an 8-bit index comes back to a destination address, it comes back to its source address too. -/
theorem State.srcAddr_congr {j k : Nat} (h : s.dstAddr dst dir j = s.dstAddr dst dir k) :
    s.srcAddr src dir j = s.srcAddr src dir k := by
  have hoff := congrArg offsetOf h
  rw [s.dstAddr_eq, s.dstAddr_eq, offsetOf_joinAddr, offsetOf_joinAddr, wrap_inj] at hoff
  have hsteps : dir * j ≡ dir * k [ZMOD 2 ^ s.wX.bits] := Int.ModEq.add_left_cancel' _ hoff
  rw [s.srcAddr_eq, s.srcAddr_eq, wrap_inj.mpr (hsteps.add_left _)]

/-- The count is used up exactly when it was 0 (R390). -/
theorem sub_one_eq_allOnes_iff (c : Word) : c - 1 = 0xFFFF ↔ c = 0 := by
  constructor <;> intro h <;> bv_omega

/-- The registers after one byte was moved in direction `dir`. -/
theorem State.moveByte_eq :
    s.moveByte (BitVec.ofInt 16 dir) dst src =
      { s with
        mem := (s.moveByte (BitVec.ofInt 16 dir) dst src).mem
        dbr := dst
        x := wrap s.wX (s.xNat + dir)
        y := wrap s.wX (s.yNat + dir)
        c := s.c - 1
        pc := if s.c = 0 then s.pc else s.pc - 3 } := by
  rw [← s.toNat_idxX, ← s.toNat_idxY, ← trunc_add_ofInt, ← trunc_add_ofInt]
  simp only [← sub_one_eq_allOnes_iff]
  rfl

/-- The byte at the first source address goes to the first destination address. -/
theorem State.wrote_moveByte (d : Word) :
    Wrote s (s.moveByte d dst src) [(s.dstAddr dst 1 0, s.readByte (s.srcAddr src 1 0))] := by
  rw [State.dstAddr_zero, State.srcAddr_zero]
  exact ((Wrote.refl s).writeByte rfl _ _).congr rfl rfl rfl

/-- An instruction and a direction that belong together (R390, R391). -/
def IsBlockMove (dst src : Byte) (i : Instr) (dir : Int) : Prop :=
  i = .mvn dst src ∧ dir = 1 ∨ i = .mvp dst src ∧ dir = -1

variable {s dst src dir} {i : Instr} (h : IsBlockMove dst src i dir)
include h

theorem IsBlockMove.exec_eq (s : State) : exec i s = .next (s.moveByte (BitVec.ofInt 16 dir) dst src) := by
  obtain ⟨rfl, rfl⟩ | ⟨rfl, rfl⟩ := h <;> rfl

/-- Block moves are three bytes long (R157). -/
theorem IsBlockMove.advance_eq (s : State) : s.advance i = { s with pc := s.pc + 3 } := by
  obtain ⟨rfl, rfl⟩ | ⟨rfl, rfl⟩ := h <;> rfl

/-- What one execution of a block move answers. -/
theorem IsBlockMove.answers (s : State) : Answers i s fun t =>
    Wrote s t [(s.dstAddr dst 1 0, s.readByte (s.srcAddr src 1 0))]
    ∧ t = { s with
      mem := t.mem
      dbr := dst
      x := wrap s.wX (s.xNat + dir)
      y := wrap s.wX (s.yNat + dir)
      c := s.c - 1
      pc := if s.c = 0 then s.pc else s.pc - 3 } :=
  ⟨_, h.exec_eq s, s.wrote_moveByte dst src _, s.moveByte_eq dst src dir⟩

end

/-- Settles O47: MVN and MVP are one move with the two directions. -/
theorem blockMoveMovesOneByte : Obligations.BlockMoveMovesOneByte := by
  refine ⟨hasForms_of_table _ _ (by decide +kernel), hasForms_of_table _ _ (by decide +kernel), fun s dst src => ?_⟩
  have hcount : wrap .word ((s.c.toNat : Int) - 1) = s.c - 1 := (trunc_sub .word s.c 1).symm
  rw [hcount]
  simp only [List.forall_mem_cons, List.not_mem_nil, false_imp_iff, implies_true, and_true]
  exact ⟨IsBlockMove.answers (.inl ⟨rfl, rfl⟩) s, IsBlockMove.answers (.inr ⟨rfl, rfl⟩) s⟩

/-! ## A whole block (R392) -/

/-- One more execution at the end of a run. -/
theorem runSame_succ {i : Instr} {n : Nat} {s u t : State} (hrun : runSame i n s = some u)
    (hexec : exec i (u.advance i) = .next t) : runSame i (n + 1) s = some t := by
  induction n generalizing s with
  | zero =>
    cases hrun
    rw [runSame, hexec]
    rfl
  | succ n ih =>
    obtain ⟨v, hv⟩ := exec_answers i (s.advance i)
    rw [runSame, hv] at hrun ⊢
    exact ih hrun

/-- Where a block move stands after `n` executions from `s`. -/
structure BlockProgress (s : State) (dst src : Byte) (dir : Int) (n : Nat) (u : State) : Prop where
  frame : u = { s with
    mem := u.mem
    x := u.x
    y := u.y
    dbr := u.dbr
    c := s.c - BitVec.ofNat 16 n
    pc := if s.c.toNat < n then s.pc + 3 else s.pc }
  idxX : u.idxX = wrap s.wX (s.xNat + dir * n)
  idxY : u.idxY = wrap s.wX (s.yNat + dir * n)
  /-- From the first execution on the index registers are as wide as x says and DBR is the destination's bank. -/
  moved : 0 < n → u.x = u.idxX ∧ u.y = u.idxY ∧ u.dbr = dst
  copied : ∀ j < n, u.readByte (s.dstAddr dst dir j) = s.readByte (s.srcAddr src dir j)
  kept : ∀ a, (∀ j < n, a ≠ s.dstAddr dst dir j) → u.readByte a = s.readByte a

section
variable {s u : State} {dst src : Byte} {dir : Int} {i : Instr} {n : Nat}

theorem BlockProgress.start : BlockProgress s dst src dir 0 s where
  frame := by simp
  idxX := by simpa using s.idxX_eq_wrap
  idxY := by simpa using s.idxY_eq_wrap
  moved hpos := absurd hpos (lt_irrefl 0)
  copied _ hj := absurd hj (Nat.not_lt_zero _)
  kept _ _ := rfl

/-- While the count is not used up, PC stands at the instruction's own address. -/
theorem BlockProgress.pc_eq (h : BlockProgress s dst src dir n u) (hn : n ≤ s.c.toNat) : u.pc = s.pc := by
  rw [h.frame]
  exact if_neg (by omega)

theorem BlockProgress.c_eq_zero_iff (h : BlockProgress s dst src dir n u) (hn : n ≤ s.c.toNat) :
    u.c = 0 ↔ s.c.toNat < n + 1 := by
  have hc : u.c = s.c - BitVec.ofNat 16 n := by rw [h.frame]
  have := s.c.isLt
  rw [hc, ← BitVec.toNat_inj, BitVec.toNat_sub, BitVec.toNat_ofNat]
  simp only [BitVec.ofNat_eq_ofNat, BitVec.toNat_ofNat]
  omega

/-- The next execution reads the next source byte, which no earlier one wrote, and writes the next destination
byte. -/
theorem BlockProgress.wrote (h : BlockProgress s dst src dir n u) (hn : n ≤ s.c.toNat)
    (hapart : ∀ j ≤ s.c.toNat, ∀ k ≤ s.c.toNat, s.dstAddr dst dir j ≠ s.srcAddr src dir k) {t : State}
    (hwrote : Wrote u t [(u.dstAddr dst 1 0, u.readByte (u.srcAddr src 1 0))]) :
    Wrote u t [(s.dstAddr dst dir n, s.readByte (s.srcAddr src dir n))] := by
  have hdst : u.dstAddr dst 1 0 = s.dstAddr dst dir n := by rw [State.dstAddr_zero, h.idxY, State.dstAddr_eq]
  have hsrc : u.srcAddr src 1 0 = s.srcAddr src dir n := by rw [State.srcAddr_zero, h.idxX, State.srcAddr_eq]
  have hfresh : u.readByte (s.srcAddr src dir n) = s.readByte (s.srcAddr src dir n) :=
    h.kept _ fun j hj => (hapart j (by omega) n hn).symm
  rwa [hdst, hsrc, hfresh] at hwrote

/-- The bytes of the block and the others after one more byte was written. -/
theorem BlockProgress.bytes_succ (h : BlockProgress s dst src dir n u) {t : State}
    (hram : kindAt u.platform.memMap (s.dstAddr dst dir n).toNat = .ram)
    (hwrote : Wrote u t [(s.dstAddr dst dir n, s.readByte (s.srcAddr src dir n))]) :
    (∀ j < n + 1, t.readByte (s.dstAddr dst dir j) = s.readByte (s.srcAddr src dir j))
      ∧ ∀ a, (∀ j < n + 1, a ≠ s.dstAddr dst dir j) → t.readByte a = s.readByte a := by
  have hother {a : Addr} (ha : a ≠ s.dstAddr dst dir n) : t.readByte a = u.readByte a :=
    hwrote.changesOnly a (by simpa using ha)
  refine ⟨fun j hj => ?_, fun a ha => ?_⟩
  · by_cases hsame : s.dstAddr dst dir j = s.dstAddr dst dir n
    · rw [hsame, s.srcAddr_congr dst src dir hsame]
      exact hwrote.readByte_of_mem (by simp) (List.mem_singleton_self _) hram
    · have hne : j ≠ n := fun hjn => hsame (by rw [hjn])
      rw [hother hsame, h.copied j (by omega)]
  · rw [hother (ha n (Nat.lt_succ_self n)), h.kept a fun j hj => ha j (by omega)]

theorem BlockProgress.wX_eq (h : BlockProgress s dst src dir n u) : u.wX = s.wX :=
  State.wX_congr _ _ (State.flag_congr _ _ (by rw [h.frame]) .x)

theorem BlockProgress.wrap_xNat_add (h : BlockProgress s dst src dir n u) :
    wrap u.wX (u.xNat + dir) = wrap s.wX (s.xNat + dir * (n + 1 : Nat)) := by
  rw [← u.toNat_idxX, h.idxX, h.wX_eq, wrap_toNat_wrap_add, Nat.cast_succ, mul_add_one, add_assoc]

theorem BlockProgress.wrap_yNat_add (h : BlockProgress s dst src dir n u) :
    wrap u.wX (u.yNat + dir) = wrap s.wX (s.yNat + dir * (n + 1 : Nat)) := by
  rw [← u.toNat_idxY, h.idxY, h.wX_eq, wrap_toNat_wrap_add, Nat.cast_succ, mul_add_one, add_assoc]

/-- The registers after the next byte. -/
theorem BlockProgress.frame_succ (h : BlockProgress s dst src dir n u) (hn : n ≤ s.c.toNat) {t : State}
    (hframe : t = { u with
      mem := t.mem
      dbr := dst
      x := wrap u.wX (u.xNat + dir)
      y := wrap u.wX (u.yNat + dir)
      c := u.c - 1
      pc := if u.c = 0 then u.pc + 3 else u.pc + 3 - 3 }) :
    t = { s with
      mem := t.mem
      dbr := dst
      x := wrap s.wX (s.xNat + dir * (n + 1 : Nat))
      y := wrap s.wX (s.yNat + dir * (n + 1 : Nat))
      c := s.c - BitVec.ofNat 16 (n + 1)
      pc := if s.c.toNat < n + 1 then s.pc + 3 else s.pc } := by
  have hcount : u.c - 1 = s.c - BitVec.ofNat 16 (n + 1) := by
    rw [h.frame, ← ofNat_add_one, BitVec.sub_sub]
  simp only [h.wrap_xNat_add, h.wrap_yNat_add, h.c_eq_zero_iff hn, h.pc_eq hn, hcount, BitVec.add_sub_cancel]
    at hframe
  rw [hframe, h.frame]

/-- The next execution of the instruction moves the next byte. -/
theorem BlockProgress.step (hi : IsBlockMove dst src i dir)
    (hram : ∀ j ≤ s.c.toNat, kindAt s.platform.memMap (s.dstAddr dst dir j).toNat = .ram)
    (hapart : ∀ j ≤ s.c.toNat, ∀ k ≤ s.c.toNat, s.dstAddr dst dir j ≠ s.srcAddr src dir k)
    (h : BlockProgress s dst src dir n u) (hn : n ≤ s.c.toNat) :
    ∃ t, exec i (u.advance i) = .next t ∧ BlockProgress s dst src dir (n + 1) t := by
  obtain ⟨t, hexec, hwrote, hregs⟩ := hi.answers (u.advance i)
  rw [hi.advance_eq] at hwrote hregs
  have hplat : u.platform = s.platform := by rw [h.frame]
  obtain ⟨hcopied, hkept⟩ := h.bytes_succ (hplat ▸ hram n hn) (h.wrote hn hapart hwrote)
  have hframe := h.frame_succ hn hregs
  have hx : t.idxX = t.x := by rw [hframe]; exact trunc_wrap _ _
  have hy : t.idxY = t.y := by rw [hframe]; exact trunc_wrap _ _
  refine ⟨t, hexec, ?frame, ?idxX, ?idxY, fun _ => ⟨hx.symm, hy.symm, ?bank⟩, hcopied, hkept⟩
  case idxX => rw [hx, hframe]
  case idxY => rw [hy, hframe]
  case bank => rw [hframe]
  case frame => rw [hframe]

/-- As long as the count lasts, the runs of a block move copy byte after byte. -/
theorem IsBlockMove.progress (hi : IsBlockMove dst src i dir)
    (hram : ∀ j ≤ s.c.toNat, kindAt s.platform.memMap (s.dstAddr dst dir j).toNat = .ram)
    (hapart : ∀ j ≤ s.c.toNat, ∀ k ≤ s.c.toNat, s.dstAddr dst dir j ≠ s.srcAddr src dir k) (n : Nat)
    (hn : n ≤ s.c.toNat + 1) : ∃ u, runSame i n s = some u ∧ BlockProgress s dst src dir n u := by
  induction n with
  | zero => exact ⟨s, rfl, .start⟩
  | succ n ih =>
    obtain ⟨u, hrun, hu⟩ := ih (by omega)
    obtain ⟨t, hexec, ht⟩ := hu.step hi hram hapart (by omega)
    exact ⟨t, runSame_succ hrun hexec, ht⟩

/-- Where the move stands once the count is used up. -/
theorem BlockProgress.frame_last {t : State} (h : BlockProgress s dst src dir (s.c.toNat + 1) t) :
    t = { s with
      mem := t.mem
      c := 0xFFFF
      x := wrap s.wX (s.xNat + dir * (s.c.toNat + 1))
      y := wrap s.wX (s.yNat + dir * (s.c.toNat + 1))
      dbr := dst
      pc := s.pc + 3 } := by
  obtain ⟨hx, hy, hbank⟩ := h.moved (Nat.succ_pos _)
  have hcount : s.c - BitVec.ofNat 16 (s.c.toNat + 1) = 0xFFFF := by
    rw [← ofNat_add_one, BitVec.ofNat_toNat, BitVec.setWidth_eq]
    bv_omega
  have hframe := h.frame
  rw [hx, hy, h.idxX, h.idxY, hbank, hcount, if_pos (Nat.lt_succ_self _)] at hframe
  exact_mod_cast hframe

end

/-- Settles O48: after `n + 1` executions the count is used up, and the invariant says the rest. -/
theorem blockMoveCopiesTheWholeBlock : Obligations.BlockMoveCopiesTheWholeBlock := by
  intro s dst src i dir hi hram _ hapart
  have hprogress := IsBlockMove.progress hi hram hapart
  refine ⟨fun n hn => ?_, ?_⟩
  · obtain ⟨u, hrun, hu⟩ := hprogress n (by omega)
    exact ⟨u, hrun, hu.pc_eq hn⟩
  · obtain ⟨t, hrun, ht⟩ := hprogress (s.c.toNat + 1) le_rfl
    exact ⟨t, hrun, fun j hj => ht.copied j (by omega), fun a ha => ht.kept a fun j hj => ha j (by omega),
      ht.frame_last⟩

end Machine
end Sys2Proof
end

section
/-! Exceptions (60_exceptions.md): no step stops on the chip's platform; interrupts, halts and ABORT at the check
between steps; RTI after an entry. -/

namespace Sys2Proof
namespace Machine

/-! ## Nothing stops the machine (R401, R107) -/

/-- Settles O7: every instruction has a meaning, and under `EMU_EXT = chip` the emulation-mode check does not
apply. -/
theorem stepNeverStopsOnTheChip : Obligations.StepNeverStopsOnTheChip := by
  refine ⟨exec_answers, fun s hchip => step_answers ?_⟩
  simp [State.emuChecked, hchip]

/-! ## Vectors (R400, R411) -/

theorem vector_nmi (e : Bool) : vector .nmi e = if e then 0xFFFA else 0xFFEA := by cases e <;> rfl

theorem vector_irq (e : Bool) : vector .irq e = if e then 0xFFFE else 0xFFEE := by cases e <;> rfl

theorem vector_abort (e : Bool) : vector .abort e = if e then 0xFFF8 else 0xFFE8 := by cases e <;> rfl

/-! ## The check between steps (R404) -/

@[simp] theorem State.pollInputs_run (s : State) : s.pollInputs.run = s.run := by rw [s.pollInputs_eq]

section
variable {s : State} (hreset : s.resetReq = false)
include hreset

theorem State.check_stopped (hrun : s.run = .stopped) : s.check = .idle := by
  simp [State.check, hreset, hrun]

theorem State.check_nmi (hrun : s.run ≠ .stopped) (hnmi : s.nmiPending = true) : s.check = .interrupt .nmi := by
  simp [State.check, hreset, hrun, hnmi]

theorem State.check_irq (hrun : s.run ≠ .stopped) (hnmi : s.nmiPending = false) (hirq : s.irqLine = true)
    (hi : s.flag .i = false) : s.check = .interrupt .irq := by
  simp [State.check, hreset, hrun, hnmi, hirq, hi]

theorem State.check_waiting (hrun : s.run = .waiting) (hnmi : s.nmiPending = false) (hirq : s.irqLine = false) :
    s.check = .idle := by
  simp [State.check, hreset, hrun, hnmi, hirq]

theorem State.check_wake (hrun : s.run = .waiting) (hnmi : s.nmiPending = false) (hirq : s.irqLine = true)
    (hi : s.flag .i = true) : s.check = .wake := by
  simp [State.check, hreset, hrun, hnmi, hirq, hi]

theorem State.check_abort (hrun : s.run = .running) (hnmi : s.nmiPending = false)
    (hmasked : s.irqLine = true → s.flag .i = true) (hhas : s.platform.hasAbort = true)
    (habort : s.abortReq = true) : s.check = .abort := by
  have htaken : (s.irqLine && !s.flag .i) = false := by
    cases hirq : s.irqLine with
    | true => simp [hmasked hirq]
    | false => rfl
  simp [State.check, hreset, hrun, hnmi, htaken, hhas, habort]

end

/-! ## NMI and IRQ (R404, R410) -/

/-- A step whose check finds an interrupt enters it from running and ends (R410, R25). -/
theorem step_interrupt {s : State} {k : IntKind} (hstate : s.pollInputs.emuRefusesState = false)
    (hcheck : s.pollInputs.check = .interrupt k) : StepAnswers s fun t => ∃ w,
      Entered k (vector k s.e) { s.pollInputs with run := .running } w ∧ EndsStep s w t := by
  refine ⟨(s.pollInputs.resume.enter k).endStep, ?_, s.pollInputs.resume.enter k, ?_, endsStep_endStep (by simp)⟩
  · rw [step_of_allowed hstate, hcheck]
    rfl
  · have hentered := s.pollInputs.resume.enter_entered k
    rwa [State.resume_e, State.pollInputs_e] at hentered

/-- Settles O54: the check finds the interrupt, NMI before IRQ, and the step enters it. -/
theorem hardwareInterruptsAreTaken : Obligations.HardwareInterruptsAreTaken := by
  intro s hreset hrun hstate
  rw [← s.pollInputs_run] at hrun
  refine ⟨fun hnmi => ?nmi, fun hnmi hirq hi => ?irq⟩
  case nmi =>
    rw [← vector_nmi]
    exact step_interrupt hstate (State.check_nmi hreset hrun hnmi)
  case irq =>
    rw [← vector_irq]
    exact step_interrupt hstate (State.check_irq hreset hrun hnmi hirq (by simpa using hi))

/-! ## Stopped and waiting machines (R366, R367, R430) -/

/-- In a state of the right mode the forcing of S changes nothing (R25, R42). -/
theorem State.forceStackPage_eq_self {s : State} (hin : s.e = true → highByte s.sp = 1) : s.forceStackPage = s := by
  have hsp : (if s.e then joinBytes 1 (lowByte s.sp) else s.sp) = s.sp := by
    split
    next he => rw [← hin he, joinBytes_high_low]
    next => rfl
  exact congrArg (fun v => { s with sp := v }) hsp

@[simp] theorem State.pollInputs_sp (s : State) : s.pollInputs.sp = s.sp := by rw [s.pollInputs_eq]

/-- Settles O55: what the check finds is to idle or to wake, and S is in page 1 already. -/
theorem stoppedAndWaitingMachines : Obligations.StoppedAndWaitingMachines := by
  intro s hmode hreset hstate
  have hin : s.e = true → highByte s.sp = 1 := fun he => State.stackInPage_of_modeOk hmode he rfl
  have hidle (hcheck : s.pollInputs.check = .idle) : step s = .next s.pollInputs := by
    rw [step_of_allowed hstate, hcheck, perform, State.forceStackPage_eq_self (by simpa using hin)]
  have hwake (hcheck : s.pollInputs.check = .wake) : step s = .next s.pollInputs.resume := by
    rw [step_of_allowed hstate, hcheck, perform, State.forceStackPage_eq_self (by simpa using hin)]
  rw [← s.pollInputs_run]
  exact ⟨fun hrun => hidle (State.check_stopped hreset hrun), fun hrun hnmi =>
    ⟨fun hirq => hidle (State.check_waiting hreset hrun hnmi hirq),
      fun hirq hi => hwake (State.check_wake hreset hrun hnmi hirq (by simpa using hi))⟩⟩

/-! ## ABORT (R420) -/

/-- Settles O56: the check finds ABORT, and the step enters it in place of the instruction at PC. -/
theorem abortSuppressesTheInstruction : Obligations.AbortSuppressesTheInstruction := by
  intro s hhas habort hrun hreset hnmi hmasked hchecked
  have hcheck : s.pollInputs.check = .abort :=
    State.check_abort hreset (by simpa using hrun) hnmi (by simpa using hmasked) hhas habort
  have hstate : s.pollInputs.emuRefusesState = false := by rw [State.emuRefusesState, hchecked, Bool.false_and]
  refine ⟨s.pollInputs.takeAbort.endStep, ?_, s.pollInputs.takeAbort, ?_,
    endsStep_endStep (by simp [State.takeAbort])⟩
  · rw [step_of_allowed hstate, hcheck, perform, runAbort, hchecked]
    rfl
  · have hentered := State.enter_entered { s.pollInputs with abortReq := false } .abort
    rwa [vector_abort, s.pollInputs_e] at hentered

/-! ## RTI after an entry (R292, R410, R425) -/

/-- Setting m and x restores a P that has both set, whatever an entry made of bit 4 (R41, R410). -/
theorem or_mx_of_and_mx {p : Byte} (h : p &&& 0x30 = 0x30) : p ||| 0x10 ||| 0x30 = p ∧ p &&& 0xEF ||| 0x30 = p := by
  revert p
  decide

theorem statusPushed_or_mx {s : State} (k : IntKind) (hwf : s.wf = true) (he : s.e = true) :
    statusPushed k s ||| 0x30 = s.p := by
  obtain ⟨hset, hclear⟩ := or_mx_of_and_mx (State.p_and_mx_of_wf hwf he)
  rw [statusPushed, if_pos he]
  split
  · exact hset
  · exact hclear

theorem statusPushed_native {s : State} (k : IntKind) (he : s.e = false) : statusPushed k s = s.p := by
  simp [statusPushed, he]

theorem clampIndex_eq_self {p : Byte} {v : Word} (h : p.getLsbD 4 = true → highByte v = 0) : clampIndex p v = v := by
  unfold clampIndex
  split
  next hx =>
    rw [← BitVec.toNat_inj, toNat_zeroExtend8, toNat_lowByte]
    have := congrArg BitVec.toNat (h hx)
    rw [toNat_highByte] at this
    simp only [BitVec.ofNat_eq_ofNat, BitVec.toNat_ofNat] at this
    omega
  next => rfl

section
variable {s t : State} {k : IntKind} (hwf : s.wf = true) (he : t.e = s.e)
include hwf he

/-- The pulled status byte gives P back and leaves the index registers alone (R23, R41). -/
theorem State.pulledP_statusPushed (hx : t.x = s.x) (hy : t.y = s.y) :
    t.pulledP (statusPushed k s) = { t with p := s.p } := by
  cases hmode : s.e with
  | true => rw [State.pulledP, if_pos (he.trans hmode), statusPushed_or_mx k hwf hmode]
  | false =>
    have hindex := (s.wf_iff.mp hwf).1.index
    rw [State.pulledP, if_neg (by simp [he, hmode]), statusPushed_native k hmode, State.writeP, hx, hy,
      clampIndex_eq_self fun h => (hindex h).1, clampIndex_eq_self fun h => (hindex h).2, ← hx, ← hy]

/-- What RTI finds above S after the frame of an entry was pushed there. -/
theorem Pushed.frame_found (hram : s.FrameInRam .page 4)
    (h : Pushed s t .page ((if s.e then [] else [s.pbr]) ++ [highByte s.pc, lowByte s.pc, statusPushed k s])) :
    t.stackByte .page 1 = statusPushed k s
      ∧ joinBytes (t.stackByte .page 3) (t.stackByte .page 2) = s.pc
      ∧ (s.e = false → t.stackByte .page 4 = s.pbr)
      ∧ t.stackSlot .page (if s.e then 3 else 4) = s.sp := by
  have hin : s.StackInPage .page := fun hse _ => (s.wf_iff.mp hwf).2 hse
  cases hmode : s.e with
  | true =>
    simp only [hmode, if_true, List.nil_append] at h
    have hram3 := hram.mono (show 3 ≤ 4 by decide)
    have hhigh : t.stackByte .page 3 = highByte s.pc := h.stackByte_sub hin he hram3 (by simp) (j := 0) (by simp)
    have hlow : t.stackByte .page 2 = lowByte s.pc := h.stackByte_sub hin he hram3 (by simp) (j := 1) (by simp)
    have hp : t.stackByte .page 1 = statusPushed k s := h.stackByte_sub hin he hram3 (by simp) (j := 2) (by simp)
    exact ⟨hp, by rw [hhigh, hlow, joinBytes_high_low], fun hfalse => Bool.noConfusion hfalse,
      h.stackSlot_length hin he⟩
  | false =>
    simp only [hmode, Bool.false_eq_true, if_false, List.singleton_append] at h
    have hbank : t.stackByte .page 4 = s.pbr := h.stackByte_sub hin he hram (by simp) (j := 0) (by simp)
    have hhigh : t.stackByte .page 3 = highByte s.pc := h.stackByte_sub hin he hram (by simp) (j := 1) (by simp)
    have hlow : t.stackByte .page 2 = lowByte s.pc := h.stackByte_sub hin he hram (by simp) (j := 2) (by simp)
    have hp : t.stackByte .page 1 = statusPushed k s := h.stackByte_sub hin he hram (by simp) (j := 3) (by simp)
    exact ⟨hp, by rw [hhigh, hlow, joinBytes_high_low], fun _ => hbank, h.stackSlot_length hin he⟩

end

/-- Settles O58: RTI finds the bytes of the frame, and the status byte gives P back in both modes. -/
theorem rtiUndoesInterruptEntry : Obligations.RtiUndoesInterruptEntry := by
  intro s k hwf hram
  obtain ⟨hregs, hpushed, -, -⟩ := s.enter_entered k
  have he := s.enter_e k
  have hpbr : (s.enter k).pbr = 0 := by rw [hregs]
  obtain ⟨hstatus, hpc, hbank, hsp⟩ := hpushed.frame_found hwf he hram
  have hreturn : (if s.e then (s.enter k).pbr else (s.enter k).stackByte .page 4) = if s.e then 0 else s.pbr := by
    cases hmode : s.e with
    | true => exact hpbr
    | false => exact hbank hmode
  refine ⟨_, rfl, ?_⟩
  rw [State.returnFromInterrupt_eq, hstatus, hpc, he, hreturn, hsp,
    State.pulledP_statusPushed hwf he (s.enter_x k) (s.enter_y k)]
  exact congrArg (fun u : State => { u with p := s.p, pc := s.pc, pbr := if s.e then 0 else s.pbr, sp := s.sp }) hregs

end Machine
end Sys2Proof
end

section
/-! Reset (70_reset_and_hazards.md): the reset step. -/

namespace Sys2Proof
namespace Machine

theorem getLsbD_resetP_i (r : ResetDraw) : (resetP r).getLsbD 2 = true := by
  simp only [resetP, getLsbD_setBit, Nat.reduceLT]
  rfl

theorem getLsbD_resetP_d (r : ResetDraw) : (resetP r).getLsbD 3 = false := by
  simp only [resetP, getLsbD_setBit, Nat.reduceLT]
  rfl

/-- An asserted reset comes before everything else (R404 case 1). -/
theorem State.check_reset {s : State} (h : s.resetReq = true) : s.check = .reset := by
  simp [State.check, h]

/-- The inputs change no byte of memory. -/
theorem State.byteAt_pollInputs (s : State) (n : Nat) : s.pollInputs.byteAt n = s.byteAt n := by
  rw [State.byteAt, s.readByte_pollInputs, State.byteAt]

/-- Settles O53: whatever the draw, the reset event gives the registers R450's values, and the forcing of S at the
step's end finds SH at `$01`. -/
theorem resetStepReinitialises : Obligations.ResetStepReinitialises := by
  intro s hreset hstate
  refine ⟨s.pollInputs.resetEvent.endStep, ?_, ?_, getLsbD_resetP_m _, getLsbD_resetP_x _, getLsbD_resetP_i _,
    getLsbD_resetP_d _, highByte_zeroExtend8 _, highByte_zeroExtend8 _, ?_, ?_⟩
  · rw [step_of_allowed hstate, State.check_reset hreset]
    rfl
  · rw [← s.pollInputs_draws]
    rfl
  · exact State.highByte_forceStackPage_sp rfl
  · calc (s.pollInputs.read0 0xFFFC).toNat = s.pollInputs.bank0Word 0xFFFC := s.pollInputs.toNat_read0_word 0xFFFC
      _ = s.byteAt 0x00FFFC + 256 * s.byteAt 0x00FFFD := by simp only [State.bank0Word, State.byteAt_pollInputs]; rfl

end Machine
end Sys2Proof
end
